-- ==== Sys2Proof/Word.lean ====
section
/-! DEFINITION. The words of the machine: a byte is 8 bits, a word 16, a doubleword 32 (`00_scope.md` rule R9), and the two attributes an instruction has, its operand size and its address size (rule R6). -/

namespace Sys2Proof

/-- A byte, 8 bits (R9). -/
abbrev Byte := BitVec 8

/-- A word, 16 bits (R9). -/
abbrev Half := BitVec 16

/-- A doubleword, 32 bits (R9): a general register, an offset, a physical address. -/
abbrev Dword := BitVec 32

/-- The value of an operand-size or address-size attribute, 16 or 32 (R6). -/
inductive Size where
  | s16
  | s32
deriving DecidableEq, Repr

/-- The width of an operand: 8, 16 or 32 bits (`30_encoding.md` rule R95). -/
inductive Width where
  | w8
  | w16
  | w32
deriving DecidableEq, Repr

/-- The width in bits, the `n` of an instruction rule (R10). -/
@[reducible] def Width.bits : Width → Nat
  | .w8 => 8
  | .w16 => 16
  | .w32 => 32

/-- The width in bytes, `n/8`. -/
@[reducible] def Width.bytes : Width → Nat
  | .w8 => 1
  | .w16 => 2
  | .w32 => 4

end Sys2Proof
end

