-- ==== Sys2Proof/Config.lean ====
section
/-! DEFINITION. What is fixed for one machine and is not in its state: the byte that memory nothing has written reads as, the default size the machine has after reset, and the FREE VALUES, the draws `undef_N()` of `00_scope.md` rule R10. -/

namespace Sys2Proof.Config

/-- FREE VALUE. `undef_1()`: the bit the `k`-th draw gives (`10_state.md` rule R36, `92_eei_decisions.md` D9). It has no body: nothing can be proved of it. The machine counts its draws in `State.draws`, so no two draws have the same `k`. Log entry 5. -/
opaque undefBit : (k : Nat) → Bool

/-- FREE VALUE. `undef_n()`: the `n` bits the `k`-th draw gives, for the results the spec calls undefined (rules R212, R223, R243). It has no body. Log entry 5. -/
opaque undefBits : (n k : Nat) → BitVec n

/-- What a byte of memory reads as that nothing has written. DESIGN CHOICE, unsafe: log entry 4. `70_reset_and_hazards.md` rule R321 leaves memory at launch open. -/
def unwrittenByte : Byte := 0

/-- `DEFAULT_SIZE` after reset: 16, the size of Real Address Mode code (`00_scope.md` rule R6, `93_implementation_defined.md` G2, G20). PRESUMED: log entry 1. -/
def resetDefaultSize : Size := .s16

/-- The longest instruction in scope, in bytes (`30_encoding.md` rule R104). -/
def longestInstr : Nat := 14

end Sys2Proof.Config
end

