-- ==== Sys2Proof/Syntax.lean ====
section
/-! DEFINITION. The instructions as syntax: prefixes (`30_encoding.md` rule R92), ModRM operands (rules R94, R98, R99, R100) and one constructor of `Instr` for each of the 123 rows of `spec/opcode_table.json` (rules R105, R106, R108). -/

namespace Sys2Proof

/-- The six segment registers (`10_state.md` rule R39). -/
inductive Seg where
  | es
  | cs
  | ss
  | ds
  | fs
  | gs
deriving DecidableEq, Repr

/-- The prefix bytes an instruction carries (R92). Their order has no effect and is not kept (log entry 20). -/
structure Prefixes where
  /-- whether 66h is present -/
  opsize : Bool
  /-- whether 67h is present -/
  addrsize : Bool
  /-- the segment that an override prefix names, if there is one -/
  seg : Option Seg
deriving DecidableEq, Repr

/-- No prefix at all. -/
def Prefixes.none : Prefixes := ⟨false, false, Option.none⟩

/-- The value other than the given one (R92). -/
def Size.other : Size → Size
  | .s16 => .s32
  | .s32 => .s16

/-- `OperandSize` (`00_scope.md` rule R6): `DEFAULT_SIZE`, or the other value under prefix 66h. -/
def Prefixes.operandSize (dflt : Size) (p : Prefixes) : Size :=
  if p.opsize then dflt.other else dflt

/-- `AddressSize` (R6): `DEFAULT_SIZE`, or the other value under prefix 67h. -/
def Prefixes.addressSize (dflt : Size) (p : Prefixes) : Size :=
  if p.addrsize then dflt.other else dflt

/-- The displacement of a memory operand of `n`-bit addressing: absent (`mod` = 0), one byte (`mod` = 1), or all `n` bits (`mod` = 2) (R98, R99). -/
inductive Disp (n : Nat) where
  | none
  | d8 (v : Byte)
  | full (v : BitVec n)
deriving DecidableEq, Repr

/-- The base of a 16-bit memory operand, the eight rows of R98. -/
inductive Base16 where
  | bxSi
  | bxDi
  | bpSi
  | bpDi
  | si
  | di
  | bp
  | bx
deriving DecidableEq, Repr

/-- A memory operand with `AddressSize` = 16 (R98). -/
inductive Mem16 where
  /-- `mod` = 0, `rm` = 6: a 16-bit displacement alone -/
  | direct (disp : Half)
  /-- every other row; a base of BP without displacement is not encodable -/
  | based (base : Base16) (disp : Disp 16)
deriving DecidableEq, Repr

/-- The index part of a SIB byte (R100): none (`index` = 4), or a register scaled by 2^`ss`. -/
inductive Index where
  | none
  | scaled (index : BitVec 3) (ss : BitVec 2)
deriving DecidableEq, Repr

/-- A memory operand with `AddressSize` = 32 (R99, R100). -/
inductive Mem32 where
  /-- `mod` = 0, `rm` = 5: a 32-bit displacement alone -/
  | direct (disp : Dword)
  /-- `rm` other than 4: a base register and a displacement -/
  | based (base : BitVec 3) (disp : Disp 32)
  /-- a SIB byte with a base register -/
  | sib (base : BitVec 3) (index : Index) (disp : Disp 32)
  /-- a SIB byte with `base` = 5 and `mod` = 0: no base register, a 32-bit displacement -/
  | sibNoBase (index : Index) (disp : Dword)
deriving DecidableEq, Repr

/-- The memory operand a ModRM byte gives, of either address size. -/
inductive MemOperand where
  | a16 (m : Mem16)
  | a32 (m : Mem32)
deriving DecidableEq, Repr

/-- The `r/m` operand (R94): a register by its number, of the row's width, or memory. -/
inductive RM where
  | reg (n : BitVec 3)
  | mem (m : MemOperand)
deriving DecidableEq, Repr

/-- The sixteen conditions of SETcc in the order of their opcodes 0F 90 to 0F 9F (`44_setcc.md` rule R181). -/
inductive Cond where
  | o
  | no
  | b
  | ae
  | e
  | ne
  | be
  | a
  | s
  | ns
  | p
  | np
  | l
  | ge
  | le
  | g
deriving DecidableEq, Repr

/-- The instructions: one constructor for each row of `spec/opcode_table.json`, in the table's order. `p` holds the prefixes, `rm` the ModRM operand, `r` the ModRM `reg` field where it names a register operand, `imm` the immediate. A row marked "second spelling" has the encoding of an earlier row (R112). -/
inductive Instr where
  /-- `SAHF`, 9E (R130) -/
  | sahf (p : Prefixes)
  /-- `SAL r/m8,1`, D0 /4 (R150) -/
  | salRm8One (p : Prefixes) (rm : RM)
  /-- `SAL r/m8,CL`, D2 /4 (R150) -/
  | salRm8Cl (p : Prefixes) (rm : RM)
  /-- `SAL r/m8,imm8`, C0 /4 ib (R150) -/
  | salRm8Imm8 (p : Prefixes) (rm : RM) (imm : BitVec 8)
  /-- `SAL r/m16,1`, D1 /4 (R150) -/
  | salRm16One (p : Prefixes) (rm : RM)
  /-- `SAL r/m16,CL`, D3 /4 (R150) -/
  | salRm16Cl (p : Prefixes) (rm : RM)
  /-- `SAL r/m16,imm8`, C1 /4 ib (R150) -/
  | salRm16Imm8 (p : Prefixes) (rm : RM) (imm : BitVec 8)
  /-- `SAL r/m32,1`, D1 /4 (R150) -/
  | salRm32One (p : Prefixes) (rm : RM)
  /-- `SAL r/m32,CL`, D3 /4 (R150) -/
  | salRm32Cl (p : Prefixes) (rm : RM)
  /-- `SAL r/m32,imm8`, C1 /4 ib (R150) -/
  | salRm32Imm8 (p : Prefixes) (rm : RM) (imm : BitVec 8)
  /-- `SAR r/m8,1`, D0 /7 (R151) -/
  | sarRm8One (p : Prefixes) (rm : RM)
  /-- `SAR r/m8,CL`, D2 /7 (R151) -/
  | sarRm8Cl (p : Prefixes) (rm : RM)
  /-- `SAR r/m8,imm8`, C0 /7 ib (R151) -/
  | sarRm8Imm8 (p : Prefixes) (rm : RM) (imm : BitVec 8)
  /-- `SAR r/m16,1`, D1 /7 (R151) -/
  | sarRm16One (p : Prefixes) (rm : RM)
  /-- `SAR r/m16,CL`, D3 /7 (R151) -/
  | sarRm16Cl (p : Prefixes) (rm : RM)
  /-- `SAR r/m16,imm8`, C1 /7 ib (R151) -/
  | sarRm16Imm8 (p : Prefixes) (rm : RM) (imm : BitVec 8)
  /-- `SAR r/m32,1`, D1 /7 (R151) -/
  | sarRm32One (p : Prefixes) (rm : RM)
  /-- `SAR r/m32,CL`, D3 /7 (R151) -/
  | sarRm32Cl (p : Prefixes) (rm : RM)
  /-- `SAR r/m32,imm8`, C1 /7 ib (R151) -/
  | sarRm32Imm8 (p : Prefixes) (rm : RM) (imm : BitVec 8)
  /-- `SHL r/m8,1`, D0 /4 (R150); second spelling of `SAL r/m8,1` -/
  | shlRm8One (p : Prefixes) (rm : RM)
  /-- `SHL r/m8,CL`, D2 /4 (R150); second spelling of `SAL r/m8,CL` -/
  | shlRm8Cl (p : Prefixes) (rm : RM)
  /-- `SHL r/m8,imm8`, C0 /4 ib (R150); second spelling of `SAL r/m8,imm8` -/
  | shlRm8Imm8 (p : Prefixes) (rm : RM) (imm : BitVec 8)
  /-- `SHL r/m16,1`, D1 /4 (R150); second spelling of `SAL r/m16,1` -/
  | shlRm16One (p : Prefixes) (rm : RM)
  /-- `SHL r/m16,CL`, D3 /4 (R150); second spelling of `SAL r/m16,CL` -/
  | shlRm16Cl (p : Prefixes) (rm : RM)
  /-- `SHL r/m16,imm8`, C1 /4 ib (R150); second spelling of `SAL r/m16,imm8` -/
  | shlRm16Imm8 (p : Prefixes) (rm : RM) (imm : BitVec 8)
  /-- `SHL r/m32,1`, D1 /4 (R150); second spelling of `SAL r/m32,1` -/
  | shlRm32One (p : Prefixes) (rm : RM)
  /-- `SHL r/m32,CL`, D3 /4 (R150); second spelling of `SAL r/m32,CL` -/
  | shlRm32Cl (p : Prefixes) (rm : RM)
  /-- `SHL r/m32,imm8`, C1 /4 ib (R150); second spelling of `SAL r/m32,imm8` -/
  | shlRm32Imm8 (p : Prefixes) (rm : RM) (imm : BitVec 8)
  /-- `SHR r/m8,1`, D0 /5 (R152) -/
  | shrRm8One (p : Prefixes) (rm : RM)
  /-- `SHR r/m8,CL`, D2 /5 (R152) -/
  | shrRm8Cl (p : Prefixes) (rm : RM)
  /-- `SHR r/m8,imm8`, C0 /5 ib (R152) -/
  | shrRm8Imm8 (p : Prefixes) (rm : RM) (imm : BitVec 8)
  /-- `SHR r/m16,1`, D1 /5 (R152) -/
  | shrRm16One (p : Prefixes) (rm : RM)
  /-- `SHR r/m16,CL`, D3 /5 (R152) -/
  | shrRm16Cl (p : Prefixes) (rm : RM)
  /-- `SHR r/m16,imm8`, C1 /5 ib (R152) -/
  | shrRm16Imm8 (p : Prefixes) (rm : RM) (imm : BitVec 8)
  /-- `SHR r/m32,1`, D1 /5 (R152) -/
  | shrRm32One (p : Prefixes) (rm : RM)
  /-- `SHR r/m32,CL`, D3 /5 (R152) -/
  | shrRm32Cl (p : Prefixes) (rm : RM)
  /-- `SHR r/m32,imm8`, C1 /5 ib (R152) -/
  | shrRm32Imm8 (p : Prefixes) (rm : RM) (imm : BitVec 8)
  /-- `SBB AL,imm8`, 1C ib (R160) -/
  | sbbAlImm8 (p : Prefixes) (imm : BitVec 8)
  /-- `SBB AX,imm16`, 1D iw (R160) -/
  | sbbAxImm16 (p : Prefixes) (imm : BitVec 16)
  /-- `SBB EAX,imm32`, 1D id (R160) -/
  | sbbEaxImm32 (p : Prefixes) (imm : BitVec 32)
  /-- `SBB r/m8,imm8`, 80 /3 ib (R160) -/
  | sbbRm8Imm8 (p : Prefixes) (rm : RM) (imm : BitVec 8)
  /-- `SBB r/m16,imm16`, 81 /3 iw (R160) -/
  | sbbRm16Imm16 (p : Prefixes) (rm : RM) (imm : BitVec 16)
  /-- `SBB r/m32,imm32`, 81 /3 id (R160) -/
  | sbbRm32Imm32 (p : Prefixes) (rm : RM) (imm : BitVec 32)
  /-- `SBB r/m16,imm8`, 83 /3 ib (R160) -/
  | sbbRm16Imm8 (p : Prefixes) (rm : RM) (imm : BitVec 8)
  /-- `SBB r/m32,imm8`, 83 /3 ib (R160) -/
  | sbbRm32Imm8 (p : Prefixes) (rm : RM) (imm : BitVec 8)
  /-- `SBB r/m8,r8`, 18 /r (R160) -/
  | sbbRm8R8 (p : Prefixes) (rm : RM) (r : BitVec 3)
  /-- `SBB r/m16,r16`, 19 /r (R160) -/
  | sbbRm16R16 (p : Prefixes) (rm : RM) (r : BitVec 3)
  /-- `SBB r/m32,r32`, 19 /r (R160) -/
  | sbbRm32R32 (p : Prefixes) (rm : RM) (r : BitVec 3)
  /-- `SBB r8,r/m8`, 1A /r (R160) -/
  | sbbR8Rm8 (p : Prefixes) (rm : RM) (r : BitVec 3)
  /-- `SBB r16,r/m16`, 1B /r (R160) -/
  | sbbR16Rm16 (p : Prefixes) (rm : RM) (r : BitVec 3)
  /-- `SBB r32,r/m32`, 1B /r (R160) -/
  | sbbR32Rm32 (p : Prefixes) (rm : RM) (r : BitVec 3)
  /-- `SCAS m8`, AE (R170) -/
  | scasM8 (p : Prefixes)
  /-- `SCAS m16`, AF (R170) -/
  | scasM16 (p : Prefixes)
  /-- `SCAS m32`, AF (R170) -/
  | scasM32 (p : Prefixes)
  /-- `SCASB`, AE (R170); second spelling of `SCAS m8` -/
  | scasb (p : Prefixes)
  /-- `SCASW`, AF (R170); second spelling of `SCAS m16` -/
  | scasw (p : Prefixes)
  /-- `SCASD`, AF (R170); second spelling of `SCAS m32` -/
  | scasd (p : Prefixes)
  /-- `SETA r/m8`, 0F 97 ModRM (R189) -/
  | seta (p : Prefixes) (rm : RM)
  /-- `SETAE r/m8`, 0F 93 ModRM (R185) -/
  | setae (p : Prefixes) (rm : RM)
  /-- `SETB r/m8`, 0F 92 ModRM (R184) -/
  | setb (p : Prefixes) (rm : RM)
  /-- `SETBE r/m8`, 0F 96 ModRM (R188) -/
  | setbe (p : Prefixes) (rm : RM)
  /-- `SETC r/m8`, 0F 92 ModRM (R184); second spelling of `SETB r/m8` -/
  | setc (p : Prefixes) (rm : RM)
  /-- `SETE r/m8`, 0F 94 ModRM (R186) -/
  | sete (p : Prefixes) (rm : RM)
  /-- `SETG r/m8`, 0F 9F ModRM (R197) -/
  | setg (p : Prefixes) (rm : RM)
  /-- `SETGE r/m8`, 0F 9D ModRM (R195) -/
  | setge (p : Prefixes) (rm : RM)
  /-- `SETL r/m8`, 0F 9C ModRM (R194) -/
  | setl (p : Prefixes) (rm : RM)
  /-- `SETLE r/m8`, 0F 9E ModRM (R196) -/
  | setle (p : Prefixes) (rm : RM)
  /-- `SETNA r/m8`, 0F 96 ModRM (R188); second spelling of `SETBE r/m8` -/
  | setna (p : Prefixes) (rm : RM)
  /-- `SETNAE r/m8`, 0F 92 ModRM (R184); second spelling of `SETB r/m8` -/
  | setnae (p : Prefixes) (rm : RM)
  /-- `SETNB r/m8`, 0F 93 ModRM (R185); second spelling of `SETAE r/m8` -/
  | setnb (p : Prefixes) (rm : RM)
  /-- `SETNBE r/m8`, 0F 97 ModRM (R189); second spelling of `SETA r/m8` -/
  | setnbe (p : Prefixes) (rm : RM)
  /-- `SETNC r/m8`, 0F 93 ModRM (R185); second spelling of `SETAE r/m8` -/
  | setnc (p : Prefixes) (rm : RM)
  /-- `SETNE r/m8`, 0F 95 ModRM (R187) -/
  | setne (p : Prefixes) (rm : RM)
  /-- `SETNG r/m8`, 0F 9E ModRM (R196); second spelling of `SETLE r/m8` -/
  | setng (p : Prefixes) (rm : RM)
  /-- `SETNGE r/m8`, 0F 9C ModRM (R194); second spelling of `SETL r/m8` -/
  | setnge (p : Prefixes) (rm : RM)
  /-- `SETNL r/m8`, 0F 9D ModRM (R195); second spelling of `SETGE r/m8` -/
  | setnl (p : Prefixes) (rm : RM)
  /-- `SETNLE r/m8`, 0F 9F ModRM (R197); second spelling of `SETG r/m8` -/
  | setnle (p : Prefixes) (rm : RM)
  /-- `SETNO r/m8`, 0F 91 ModRM (R183) -/
  | setno (p : Prefixes) (rm : RM)
  /-- `SETNP r/m8`, 0F 9B ModRM (R193) -/
  | setnp (p : Prefixes) (rm : RM)
  /-- `SETNS r/m8`, 0F 99 ModRM (R191) -/
  | setns (p : Prefixes) (rm : RM)
  /-- `SETNZ r/m8`, 0F 95 ModRM (R187); second spelling of `SETNE r/m8` -/
  | setnz (p : Prefixes) (rm : RM)
  /-- `SETO r/m8`, 0F 90 ModRM (R182) -/
  | seto (p : Prefixes) (rm : RM)
  /-- `SETP r/m8`, 0F 9A ModRM (R192) -/
  | setp (p : Prefixes) (rm : RM)
  /-- `SETPE r/m8`, 0F 9A ModRM (R192); second spelling of `SETP r/m8` -/
  | setpe (p : Prefixes) (rm : RM)
  /-- `SETPO r/m8`, 0F 9B ModRM (R193); second spelling of `SETNP r/m8` -/
  | setpo (p : Prefixes) (rm : RM)
  /-- `SETS r/m8`, 0F 98 ModRM (R190) -/
  | sets (p : Prefixes) (rm : RM)
  /-- `SETZ r/m8`, 0F 94 ModRM (R186); second spelling of `SETE r/m8` -/
  | setz (p : Prefixes) (rm : RM)
  /-- `SGDT m`, 0F 01 /0 (R210) -/
  | sgdt (p : Prefixes) (rm : RM)
  /-- `SIDT m`, 0F 01 /1 (R211) -/
  | sidt (p : Prefixes) (rm : RM)
  /-- `SHLD r/m16,r16,imm8`, 0F A4 /r ib (R220) -/
  | shldRm16R16Imm8 (p : Prefixes) (rm : RM) (r : BitVec 3) (imm : BitVec 8)
  /-- `SHLD r/m32,r32,imm8`, 0F A4 /r ib (R220) -/
  | shldRm32R32Imm8 (p : Prefixes) (rm : RM) (r : BitVec 3) (imm : BitVec 8)
  /-- `SHLD r/m16,r16,CL`, 0F A5 /r (R220) -/
  | shldRm16R16Cl (p : Prefixes) (rm : RM) (r : BitVec 3)
  /-- `SHLD r/m32,r32,CL`, 0F A5 /r (R220) -/
  | shldRm32R32Cl (p : Prefixes) (rm : RM) (r : BitVec 3)
  /-- `SHRD r/m16,r16,imm8`, 0F AC /r ib (R230) -/
  | shrdRm16R16Imm8 (p : Prefixes) (rm : RM) (r : BitVec 3) (imm : BitVec 8)
  /-- `SHRD r/m32,r32,imm8`, 0F AC /r ib (R230) -/
  | shrdRm32R32Imm8 (p : Prefixes) (rm : RM) (r : BitVec 3) (imm : BitVec 8)
  /-- `SHRD r/m16,r16,CL`, 0F AD /r (R230) -/
  | shrdRm16R16Cl (p : Prefixes) (rm : RM) (r : BitVec 3)
  /-- `SHRD r/m32,r32,CL`, 0F AD /r (R230) -/
  | shrdRm32R32Cl (p : Prefixes) (rm : RM) (r : BitVec 3)
  /-- `SLDT r/m16`, 0F 00 /0 (R240) -/
  | sldt (p : Prefixes) (rm : RM)
  /-- `SMSW r/m16`, 0F 01 /4 (R245) -/
  | smsw (p : Prefixes) (rm : RM)
  /-- `STC`, F9 (R250) -/
  | stc (p : Prefixes)
  /-- `STD`, FD (R252) -/
  | std (p : Prefixes)
  /-- `STI`, FB (R255) -/
  | sti (p : Prefixes)
  /-- `STOS m8`, AA (R260) -/
  | stosM8 (p : Prefixes)
  /-- `STOS m16`, AB (R260) -/
  | stosM16 (p : Prefixes)
  /-- `STOS m32`, AB (R260) -/
  | stosM32 (p : Prefixes)
  /-- `STOSB`, AA (R260); second spelling of `STOS m8` -/
  | stosb (p : Prefixes)
  /-- `STOSW`, AB (R260); second spelling of `STOS m16` -/
  | stosw (p : Prefixes)
  /-- `STOSD`, AB (R260); second spelling of `STOS m32` -/
  | stosd (p : Prefixes)
  /-- `STR r/m16`, 0F 00 /1 (R265) -/
  | str (p : Prefixes) (rm : RM)
  /-- `SUB AL,imm8`, 2C ib (R270) -/
  | subAlImm8 (p : Prefixes) (imm : BitVec 8)
  /-- `SUB AX,imm16`, 2D iw (R270) -/
  | subAxImm16 (p : Prefixes) (imm : BitVec 16)
  /-- `SUB EAX,imm32`, 2D id (R270) -/
  | subEaxImm32 (p : Prefixes) (imm : BitVec 32)
  /-- `SUB r/m8,imm8`, 80 /5 ib (R270) -/
  | subRm8Imm8 (p : Prefixes) (rm : RM) (imm : BitVec 8)
  /-- `SUB r/m16,imm16`, 81 /5 iw (R270) -/
  | subRm16Imm16 (p : Prefixes) (rm : RM) (imm : BitVec 16)
  /-- `SUB r/m32,imm32`, 81 /5 id (R270) -/
  | subRm32Imm32 (p : Prefixes) (rm : RM) (imm : BitVec 32)
  /-- `SUB r/m16,imm8`, 83 /5 ib (R270) -/
  | subRm16Imm8 (p : Prefixes) (rm : RM) (imm : BitVec 8)
  /-- `SUB r/m32,imm8`, 83 /5 ib (R270) -/
  | subRm32Imm8 (p : Prefixes) (rm : RM) (imm : BitVec 8)
  /-- `SUB r/m8,r8`, 28 /r (R270) -/
  | subRm8R8 (p : Prefixes) (rm : RM) (r : BitVec 3)
  /-- `SUB r/m16,r16`, 29 /r (R270) -/
  | subRm16R16 (p : Prefixes) (rm : RM) (r : BitVec 3)
  /-- `SUB r/m32,r32`, 29 /r (R270) -/
  | subRm32R32 (p : Prefixes) (rm : RM) (r : BitVec 3)
  /-- `SUB r8,r/m8`, 2A /r (R270) -/
  | subR8Rm8 (p : Prefixes) (rm : RM) (r : BitVec 3)
  /-- `SUB r16,r/m16`, 2B /r (R270) -/
  | subR16Rm16 (p : Prefixes) (rm : RM) (r : BitVec 3)
  /-- `SUB r32,r/m32`, 2B /r (R270) -/
  | subR32Rm32 (p : Prefixes) (rm : RM) (r : BitVec 3)
deriving DecidableEq, Repr

end Sys2Proof
end

