-- ==== Sys2Proof/WellFormed.lean ====
section
/-! DEFINITION. Which terms of `Instr` stand for an instruction that can be encoded, given `DEFAULT_SIZE`: the prefixes give the operand size of the row (`30_encoding.md` rules R91, R95), the memory operand has the form of the address size (R94), and no memory operand is written in a form whose encoding means another one (R98, R99, R100). -/

namespace Sys2Proof

/-- What well-formedness looks at: the prefixes, the operand size the row is for (`fields.opsize`, R108) and the ModRM operand. -/
structure Parts where
  pre : Prefixes
  opsize : Option Size
  rm : Option RM
deriving DecidableEq, Repr

/-- The parts of each instruction. -/
def Instr.parts : Instr → Parts
  | .sahf p => ⟨p, none, none⟩
  | .salRm8One p rm => ⟨p, none, some rm⟩
  | .salRm8Cl p rm => ⟨p, none, some rm⟩
  | .salRm8Imm8 p rm _ => ⟨p, none, some rm⟩
  | .salRm16One p rm => ⟨p, some .s16, some rm⟩
  | .salRm16Cl p rm => ⟨p, some .s16, some rm⟩
  | .salRm16Imm8 p rm _ => ⟨p, some .s16, some rm⟩
  | .salRm32One p rm => ⟨p, some .s32, some rm⟩
  | .salRm32Cl p rm => ⟨p, some .s32, some rm⟩
  | .salRm32Imm8 p rm _ => ⟨p, some .s32, some rm⟩
  | .sarRm8One p rm => ⟨p, none, some rm⟩
  | .sarRm8Cl p rm => ⟨p, none, some rm⟩
  | .sarRm8Imm8 p rm _ => ⟨p, none, some rm⟩
  | .sarRm16One p rm => ⟨p, some .s16, some rm⟩
  | .sarRm16Cl p rm => ⟨p, some .s16, some rm⟩
  | .sarRm16Imm8 p rm _ => ⟨p, some .s16, some rm⟩
  | .sarRm32One p rm => ⟨p, some .s32, some rm⟩
  | .sarRm32Cl p rm => ⟨p, some .s32, some rm⟩
  | .sarRm32Imm8 p rm _ => ⟨p, some .s32, some rm⟩
  | .shlRm8One p rm => ⟨p, none, some rm⟩
  | .shlRm8Cl p rm => ⟨p, none, some rm⟩
  | .shlRm8Imm8 p rm _ => ⟨p, none, some rm⟩
  | .shlRm16One p rm => ⟨p, some .s16, some rm⟩
  | .shlRm16Cl p rm => ⟨p, some .s16, some rm⟩
  | .shlRm16Imm8 p rm _ => ⟨p, some .s16, some rm⟩
  | .shlRm32One p rm => ⟨p, some .s32, some rm⟩
  | .shlRm32Cl p rm => ⟨p, some .s32, some rm⟩
  | .shlRm32Imm8 p rm _ => ⟨p, some .s32, some rm⟩
  | .shrRm8One p rm => ⟨p, none, some rm⟩
  | .shrRm8Cl p rm => ⟨p, none, some rm⟩
  | .shrRm8Imm8 p rm _ => ⟨p, none, some rm⟩
  | .shrRm16One p rm => ⟨p, some .s16, some rm⟩
  | .shrRm16Cl p rm => ⟨p, some .s16, some rm⟩
  | .shrRm16Imm8 p rm _ => ⟨p, some .s16, some rm⟩
  | .shrRm32One p rm => ⟨p, some .s32, some rm⟩
  | .shrRm32Cl p rm => ⟨p, some .s32, some rm⟩
  | .shrRm32Imm8 p rm _ => ⟨p, some .s32, some rm⟩
  | .sbbAlImm8 p _ => ⟨p, none, none⟩
  | .sbbAxImm16 p _ => ⟨p, some .s16, none⟩
  | .sbbEaxImm32 p _ => ⟨p, some .s32, none⟩
  | .sbbRm8Imm8 p rm _ => ⟨p, none, some rm⟩
  | .sbbRm16Imm16 p rm _ => ⟨p, some .s16, some rm⟩
  | .sbbRm32Imm32 p rm _ => ⟨p, some .s32, some rm⟩
  | .sbbRm16Imm8 p rm _ => ⟨p, some .s16, some rm⟩
  | .sbbRm32Imm8 p rm _ => ⟨p, some .s32, some rm⟩
  | .sbbRm8R8 p rm _ => ⟨p, none, some rm⟩
  | .sbbRm16R16 p rm _ => ⟨p, some .s16, some rm⟩
  | .sbbRm32R32 p rm _ => ⟨p, some .s32, some rm⟩
  | .sbbR8Rm8 p rm _ => ⟨p, none, some rm⟩
  | .sbbR16Rm16 p rm _ => ⟨p, some .s16, some rm⟩
  | .sbbR32Rm32 p rm _ => ⟨p, some .s32, some rm⟩
  | .scasM8 p => ⟨p, none, none⟩
  | .scasM16 p => ⟨p, some .s16, none⟩
  | .scasM32 p => ⟨p, some .s32, none⟩
  | .scasb p => ⟨p, none, none⟩
  | .scasw p => ⟨p, some .s16, none⟩
  | .scasd p => ⟨p, some .s32, none⟩
  | .seta p rm => ⟨p, none, some rm⟩
  | .setae p rm => ⟨p, none, some rm⟩
  | .setb p rm => ⟨p, none, some rm⟩
  | .setbe p rm => ⟨p, none, some rm⟩
  | .setc p rm => ⟨p, none, some rm⟩
  | .sete p rm => ⟨p, none, some rm⟩
  | .setg p rm => ⟨p, none, some rm⟩
  | .setge p rm => ⟨p, none, some rm⟩
  | .setl p rm => ⟨p, none, some rm⟩
  | .setle p rm => ⟨p, none, some rm⟩
  | .setna p rm => ⟨p, none, some rm⟩
  | .setnae p rm => ⟨p, none, some rm⟩
  | .setnb p rm => ⟨p, none, some rm⟩
  | .setnbe p rm => ⟨p, none, some rm⟩
  | .setnc p rm => ⟨p, none, some rm⟩
  | .setne p rm => ⟨p, none, some rm⟩
  | .setng p rm => ⟨p, none, some rm⟩
  | .setnge p rm => ⟨p, none, some rm⟩
  | .setnl p rm => ⟨p, none, some rm⟩
  | .setnle p rm => ⟨p, none, some rm⟩
  | .setno p rm => ⟨p, none, some rm⟩
  | .setnp p rm => ⟨p, none, some rm⟩
  | .setns p rm => ⟨p, none, some rm⟩
  | .setnz p rm => ⟨p, none, some rm⟩
  | .seto p rm => ⟨p, none, some rm⟩
  | .setp p rm => ⟨p, none, some rm⟩
  | .setpe p rm => ⟨p, none, some rm⟩
  | .setpo p rm => ⟨p, none, some rm⟩
  | .sets p rm => ⟨p, none, some rm⟩
  | .setz p rm => ⟨p, none, some rm⟩
  | .sgdt p rm => ⟨p, none, some rm⟩
  | .sidt p rm => ⟨p, none, some rm⟩
  | .shldRm16R16Imm8 p rm _ _ => ⟨p, some .s16, some rm⟩
  | .shldRm32R32Imm8 p rm _ _ => ⟨p, some .s32, some rm⟩
  | .shldRm16R16Cl p rm _ => ⟨p, some .s16, some rm⟩
  | .shldRm32R32Cl p rm _ => ⟨p, some .s32, some rm⟩
  | .shrdRm16R16Imm8 p rm _ _ => ⟨p, some .s16, some rm⟩
  | .shrdRm32R32Imm8 p rm _ _ => ⟨p, some .s32, some rm⟩
  | .shrdRm16R16Cl p rm _ => ⟨p, some .s16, some rm⟩
  | .shrdRm32R32Cl p rm _ => ⟨p, some .s32, some rm⟩
  | .sldt p rm => ⟨p, none, some rm⟩
  | .smsw p rm => ⟨p, none, some rm⟩
  | .stc p => ⟨p, none, none⟩
  | .std p => ⟨p, none, none⟩
  | .sti p => ⟨p, none, none⟩
  | .stosM8 p => ⟨p, none, none⟩
  | .stosM16 p => ⟨p, some .s16, none⟩
  | .stosM32 p => ⟨p, some .s32, none⟩
  | .stosb p => ⟨p, none, none⟩
  | .stosw p => ⟨p, some .s16, none⟩
  | .stosd p => ⟨p, some .s32, none⟩
  | .str p rm => ⟨p, none, some rm⟩
  | .subAlImm8 p _ => ⟨p, none, none⟩
  | .subAxImm16 p _ => ⟨p, some .s16, none⟩
  | .subEaxImm32 p _ => ⟨p, some .s32, none⟩
  | .subRm8Imm8 p rm _ => ⟨p, none, some rm⟩
  | .subRm16Imm16 p rm _ => ⟨p, some .s16, some rm⟩
  | .subRm32Imm32 p rm _ => ⟨p, some .s32, some rm⟩
  | .subRm16Imm8 p rm _ => ⟨p, some .s16, some rm⟩
  | .subRm32Imm8 p rm _ => ⟨p, some .s32, some rm⟩
  | .subRm8R8 p rm _ => ⟨p, none, some rm⟩
  | .subRm16R16 p rm _ => ⟨p, some .s16, some rm⟩
  | .subRm32R32 p rm _ => ⟨p, some .s32, some rm⟩
  | .subR8Rm8 p rm _ => ⟨p, none, some rm⟩
  | .subR16Rm16 p rm _ => ⟨p, some .s16, some rm⟩
  | .subR32Rm32 p rm _ => ⟨p, some .s32, some rm⟩

/-- A 16-bit memory operand that its encoding gives back: BP without displacement is the encoding of the direct form (R98). -/
def Mem16.wellFormed : Mem16 → Bool
  | .based .bp .none => false
  | _ => true

/-- An index that its encoding gives back: register 4 as index means no index (R100). -/
def Index.wellFormed : Index → Bool
  | .none => true
  | .scaled index _ => index != 4

/-- A 32-bit memory operand that its encoding gives back: `rm` = 4 means a SIB byte, and register 5 as base without displacement means no base (R99, R100). -/
def Mem32.wellFormed : Mem32 → Bool
  | .direct _ => true
  | .based base disp => base != 4 && !(base == 5 && disp == .none)
  | .sib base index disp => index.wellFormed && !(base == 5 && disp == .none)
  | .sibNoBase index _ => index.wellFormed

/-- A ModRM operand that can be encoded under the address size. -/
def RM.wellFormed (addrsize : Size) : RM → Bool
  | .reg _ => true
  | .mem (.a16 m) => addrsize == .s16 && m.wellFormed
  | .mem (.a32 m) => addrsize == .s32 && m.wellFormed

/-- The prefixes give the operand size the row is for. -/
def Parts.sizeOk (dflt : Size) (q : Parts) : Bool :=
  match q.opsize with
  | none => true
  | some z => q.pre.operandSize dflt == z

/-- The ModRM operand, if there is one, can be encoded. -/
def Parts.rmOk (dflt : Size) (q : Parts) : Bool :=
  match q.rm with
  | none => true
  | some rm => rm.wellFormed (q.pre.addressSize dflt)

/-- An instruction that can be encoded in code of the given `DEFAULT_SIZE`. -/
def Instr.wellFormed (dflt : Size) (i : Instr) : Bool :=
  i.parts.sizeOk dflt && i.parts.rmOk dflt

end Sys2Proof
end

