-- ==== Sys2Proof/Decode.lean ====
section
/-! DEFINITION. The decoder, total on any bytes and rejecting by name (`30_encoding.md` rule R107), and after it the encoder, written from the same tables (R90 to R106). Byte order within an instruction: least significant byte first (`20_memory.md` rule R63). -/

namespace Sys2Proof

/-! ## Bytes and values -/

/-- The number whose base-256 digits are the bytes, the first the lowest (R63). -/
def bytesToNat : List Byte → Nat
  | [] => 0
  | b :: rest => b.toNat + 256 * bytesToNat rest

/-- The `k` low-order bytes of a number, the lowest first (R63). -/
def natToBytes : Nat → Nat → List Byte
  | 0, _ => []
  | k + 1, v => BitVec.ofNat 8 v :: natToBytes k (v / 256)

/-- The `n`-bit value that bytes stand for. -/
def ofBytes (n : Nat) (bs : List Byte) : BitVec n := BitVec.ofNat n (bytesToNat bs)

/-- The `k` bytes of a value, in the order of increasing address. -/
def toBytes (k : Nat) {n : Nat} (v : BitVec n) : List Byte := natToBytes k v.toNat

/-! ## Decoding -/

/-- Why the decoder rejects bytes. Safe in every case: the model gives the run no meaning where the hardware may go on. -/
inductive DecodeError where
  /-- an F0h prefix (R93, `92_eei_decisions.md` D11) -/
  | lockPrefix
  /-- an F2h or F3h prefix (R93, D11) -/
  | repPrefix
  /-- a second prefix of one kind (R93, D31) -/
  | repeatedPrefix
  /-- a one-byte opcode that R105 does not list (R110) -/
  | unlistedOpcode (b : Byte)
  /-- a second opcode byte, after 0F, that R106 does not list (R110) -/
  | unlistedOpcode0F (b : Byte)
  /-- a ModRM digit that R105 and R106 do not list for the opcode (R110) -/
  | unlistedDigit (d : BitVec 3)
  /-- a SIB byte with no index and a scale other than 1 (R100, D32) -/
  | scaledNoIndex
  /-- the bytes end before the instruction does (`10_state.md` rule R27, D13) -/
  | truncated
deriving DecidableEq, Repr

/-- What a prefix byte is (R92, R93). -/
inductive PrefixByte where
  | opsize
  | addrsize
  | seg (s : Seg)
  | lock
  | rep
deriving DecidableEq, Repr

/-- The prefix bytes (R92, R93); `none` for a byte that is no prefix. -/
def prefixByte (b : Byte) : Option PrefixByte :=
  match b with
  | 0x66#8 => some .opsize
  | 0x67#8 => some .addrsize
  | 0x26#8 => some (.seg .es)
  | 0x2E#8 => some (.seg .cs)
  | 0x36#8 => some (.seg .ss)
  | 0x3E#8 => some (.seg .ds)
  | 0x64#8 => some (.seg .fs)
  | 0x65#8 => some (.seg .gs)
  | 0xF0#8 => some .lock
  | 0xF2#8 => some .rep
  | 0xF3#8 => some .rep
  | _ => none

/-- Step 1 of R107: read prefix bytes while there are any, in any order, at most one of each kind. -/
def decodePrefixes (p : Prefixes) : List Byte → Except DecodeError (Prefixes × List Byte)
  | [] => .error .truncated
  | b :: rest =>
    match prefixByte b with
    | none => .ok (p, b :: rest)
    | some .lock => .error .lockPrefix
    | some .rep => .error .repPrefix
    | some .opsize =>
      if p.opsize then .error .repeatedPrefix else decodePrefixes { p with opsize := true } rest
    | some .addrsize =>
      if p.addrsize then .error .repeatedPrefix else decodePrefixes { p with addrsize := true } rest
    | some (.seg s) =>
      if p.seg.isSome then .error .repeatedPrefix else decodePrefixes { p with seg := some s } rest

/-- The first `k` bytes and the rest. -/
def takeBytes : Nat → List Byte → Except DecodeError (List Byte × List Byte)
  | 0, bs => .ok ([], bs)
  | _ + 1, [] => .error .truncated
  | k + 1, b :: bs =>
    match takeBytes k bs with
    | .error e => .error e
    | .ok (l, rest) => .ok (b :: l, rest)

/-- An `n`-bit field of `n / 8` bytes, least significant byte first (R101, R102). -/
def decodeField (n : Nat) (bs : List Byte) : Except DecodeError (BitVec n × List Byte) :=
  match takeBytes (n / 8) bs with
  | .error e => .error e
  | .ok (l, rest) => .ok (ofBytes n l, rest)

/-- The displacement that `mod` = 0, 1 or 2 calls for (R98, R99). -/
def decodeDisp (n : Nat) (md : BitVec 2) (bs : List Byte) : Except DecodeError (Disp n × List Byte) :=
  match md with
  | 0#2 => .ok (.none, bs)
  | 1#2 =>
    match decodeField 8 bs with
    | .error e => .error e
    | .ok (v, rest) => .ok (.d8 v, rest)
  | _ =>
    match decodeField n bs with
    | .error e => .error e
    | .ok (v, rest) => .ok (.full v, rest)

/-- The base of row `rm` of R98. -/
def Base16.ofBits (rm : BitVec 3) : Base16 :=
  match rm with
  | 0#3 => .bxSi
  | 1#3 => .bxDi
  | 2#3 => .bpSi
  | 3#3 => .bpDi
  | 4#3 => .si
  | 5#3 => .di
  | 6#3 => .bp
  | _ => .bx

/-- A 16-bit memory operand (R98), after the ModRM byte. -/
def decodeMem16 (md : BitVec 2) (rm : BitVec 3) (bs : List Byte) : Except DecodeError (Mem16 × List Byte) :=
  if md = 0 ∧ rm = 6 then
    match decodeField 16 bs with
    | .error e => .error e
    | .ok (v, rest) => .ok (.direct v, rest)
  else
    match decodeDisp 16 md bs with
    | .error e => .error e
    | .ok (d, rest) => .ok (.based (Base16.ofBits rm) d, rest)

/-- The index part of a SIB byte (R100). -/
def Index.ofBits (index : BitVec 3) (ss : BitVec 2) : Except DecodeError Index :=
  if index = 4 then (if ss = 0 then .ok .none else .error .scaledNoIndex) else .ok (.scaled index ss)

/-- A memory operand with a SIB byte (R100). -/
def decodeSib (md : BitVec 2) : List Byte → Except DecodeError (Mem32 × List Byte)
  | [] => .error .truncated
  | b :: bs =>
    match Index.ofBits (b.extractLsb' 3 3) (b.extractLsb' 6 2) with
    | .error e => .error e
    | .ok index =>
      if md = 0 ∧ b.extractLsb' 0 3 = 5 then
        match decodeField 32 bs with
        | .error e => .error e
        | .ok (v, rest) => .ok (.sibNoBase index v, rest)
      else
        match decodeDisp 32 md bs with
        | .error e => .error e
        | .ok (d, rest) => .ok (.sib (b.extractLsb' 0 3) index d, rest)

/-- A 32-bit memory operand (R99), after the ModRM byte. -/
def decodeMem32 (md : BitVec 2) (rm : BitVec 3) (bs : List Byte) : Except DecodeError (Mem32 × List Byte) :=
  if rm = 4 then decodeSib md bs
  else if md = 0 ∧ rm = 5 then
    match decodeField 32 bs with
    | .error e => .error e
    | .ok (v, rest) => .ok (.direct v, rest)
  else
    match decodeDisp 32 md bs with
    | .error e => .error e
    | .ok (d, rest) => .ok (.based rm d, rest)

/-- The memory operand of a ModRM byte with `mod` other than 3 (R94). -/
def decodeMem (addrsize : Size) (md : BitVec 2) (rm : BitVec 3) (bs : List Byte) :
    Except DecodeError (MemOperand × List Byte) :=
  match addrsize with
  | .s16 =>
    match decodeMem16 md rm bs with
    | .error e => .error e
    | .ok (m, rest) => .ok (.a16 m, rest)
  | .s32 =>
    match decodeMem32 md rm bs with
    | .error e => .error e
    | .ok (m, rest) => .ok (.a32 m, rest)

/-- The ModRM byte and what belongs to it (R94): the `r/m` operand, the `reg` field, the rest. -/
def decodeRM (addrsize : Size) : List Byte → Except DecodeError (RM × BitVec 3 × List Byte)
  | [] => .error .truncated
  | b :: bs =>
    if b.extractLsb' 6 2 = 3 then .ok (.reg (b.extractLsb' 0 3), b.extractLsb' 3 3, bs)
    else
      match decodeMem addrsize (b.extractLsb' 6 2) (b.extractLsb' 0 3) bs with
      | .error e => .error e
      | .ok (m, rest) => .ok (.mem m, b.extractLsb' 3 3, rest)

/-- What follows the opcode of a row (R113), with the constructor it fills. -/
inductive RowForm where
  /-- format `OP` -/
  | plain (mk : Prefixes → Instr)
  /-- format `OP_I`, an immediate of `n` bits -/
  | imm (n : Nat) (mk : Prefixes → BitVec n → Instr)
  /-- formats `OP_M` and `0F_M` without register operand: the `reg` field is the digit, or is not used (SETcc, R103) -/
  | modrm (mk : Prefixes → RM → Instr)
  /-- format `OP_M_I` with a digit, an immediate of `n` bits -/
  | rmImm (n : Nat) (mk : Prefixes → RM → BitVec n → Instr)
  /-- formats `OP_M` and `0F_M` with a register operand -/
  | rmReg (mk : Prefixes → RM → BitVec 3 → Instr)
  /-- format `0F_M_I`: a register operand and an immediate byte -/
  | rmRegImm8 (mk : Prefixes → RM → BitVec 3 → BitVec 8 → Instr)

/-- What an opcode is: a row of R105 or R106, or rows told apart by the ModRM digit. -/
inductive OpcodeRow where
  | found (f : RowForm)
  | digits (f : BitVec 3 → Option RowForm)

/-- The row of a pair that has the operand size (R91). -/
def pick (osz : Size) (row16 row32 : RowForm) : RowForm :=
  match osz with
  | .s16 => row16
  | .s32 => row32

/-- The one-byte opcodes (R105). -/
def oneByteOpcode (osz : Size) (b : Byte) : Option OpcodeRow :=
  match b with
  | 0x18#8 => some (.found (.rmReg .sbbRm8R8))
  | 0x19#8 => some (.found (pick osz (.rmReg .sbbRm16R16) (.rmReg .sbbRm32R32)))
  | 0x1A#8 => some (.found (.rmReg .sbbR8Rm8))
  | 0x1B#8 => some (.found (pick osz (.rmReg .sbbR16Rm16) (.rmReg .sbbR32Rm32)))
  | 0x1C#8 => some (.found (.imm 8 .sbbAlImm8))
  | 0x1D#8 => some (.found (pick osz (.imm 16 .sbbAxImm16) (.imm 32 .sbbEaxImm32)))
  | 0x28#8 => some (.found (.rmReg .subRm8R8))
  | 0x29#8 => some (.found (pick osz (.rmReg .subRm16R16) (.rmReg .subRm32R32)))
  | 0x2A#8 => some (.found (.rmReg .subR8Rm8))
  | 0x2B#8 => some (.found (pick osz (.rmReg .subR16Rm16) (.rmReg .subR32Rm32)))
  | 0x2C#8 => some (.found (.imm 8 .subAlImm8))
  | 0x2D#8 => some (.found (pick osz (.imm 16 .subAxImm16) (.imm 32 .subEaxImm32)))
  | 0x80#8 => some (.digits fun d =>
      match d with
      | 3#3 => some (.rmImm 8 .sbbRm8Imm8)
      | 5#3 => some (.rmImm 8 .subRm8Imm8)
      | _ => none)
  | 0x81#8 => some (.digits fun d =>
      match d with
      | 3#3 => some (pick osz (.rmImm 16 .sbbRm16Imm16) (.rmImm 32 .sbbRm32Imm32))
      | 5#3 => some (pick osz (.rmImm 16 .subRm16Imm16) (.rmImm 32 .subRm32Imm32))
      | _ => none)
  | 0x83#8 => some (.digits fun d =>
      match d with
      | 3#3 => some (pick osz (.rmImm 8 .sbbRm16Imm8) (.rmImm 8 .sbbRm32Imm8))
      | 5#3 => some (pick osz (.rmImm 8 .subRm16Imm8) (.rmImm 8 .subRm32Imm8))
      | _ => none)
  | 0x9E#8 => some (.found (.plain .sahf))
  | 0xAA#8 => some (.found (.plain .stosM8))
  | 0xAB#8 => some (.found (pick osz (.plain .stosM16) (.plain .stosM32)))
  | 0xAE#8 => some (.found (.plain .scasM8))
  | 0xAF#8 => some (.found (pick osz (.plain .scasM16) (.plain .scasM32)))
  | 0xC0#8 => some (.digits fun d =>
      match d with
      | 4#3 => some (.rmImm 8 .salRm8Imm8)
      | 5#3 => some (.rmImm 8 .shrRm8Imm8)
      | 7#3 => some (.rmImm 8 .sarRm8Imm8)
      | _ => none)
  | 0xC1#8 => some (.digits fun d =>
      match d with
      | 4#3 => some (pick osz (.rmImm 8 .salRm16Imm8) (.rmImm 8 .salRm32Imm8))
      | 5#3 => some (pick osz (.rmImm 8 .shrRm16Imm8) (.rmImm 8 .shrRm32Imm8))
      | 7#3 => some (pick osz (.rmImm 8 .sarRm16Imm8) (.rmImm 8 .sarRm32Imm8))
      | _ => none)
  | 0xD0#8 => some (.digits fun d =>
      match d with
      | 4#3 => some (.modrm .salRm8One)
      | 5#3 => some (.modrm .shrRm8One)
      | 7#3 => some (.modrm .sarRm8One)
      | _ => none)
  | 0xD1#8 => some (.digits fun d =>
      match d with
      | 4#3 => some (pick osz (.modrm .salRm16One) (.modrm .salRm32One))
      | 5#3 => some (pick osz (.modrm .shrRm16One) (.modrm .shrRm32One))
      | 7#3 => some (pick osz (.modrm .sarRm16One) (.modrm .sarRm32One))
      | _ => none)
  | 0xD2#8 => some (.digits fun d =>
      match d with
      | 4#3 => some (.modrm .salRm8Cl)
      | 5#3 => some (.modrm .shrRm8Cl)
      | 7#3 => some (.modrm .sarRm8Cl)
      | _ => none)
  | 0xD3#8 => some (.digits fun d =>
      match d with
      | 4#3 => some (pick osz (.modrm .salRm16Cl) (.modrm .salRm32Cl))
      | 5#3 => some (pick osz (.modrm .shrRm16Cl) (.modrm .shrRm32Cl))
      | 7#3 => some (pick osz (.modrm .sarRm16Cl) (.modrm .sarRm32Cl))
      | _ => none)
  | 0xF9#8 => some (.found (.plain .stc))
  | 0xFB#8 => some (.found (.plain .sti))
  | 0xFD#8 => some (.found (.plain .std))
  | _ => none

/-- The two-byte opcodes, by their second byte (R106). -/
def twoByteOpcode (osz : Size) (b : Byte) : Option OpcodeRow :=
  match b with
  | 0x00#8 => some (.digits fun d =>
      match d with
      | 0#3 => some (.modrm .sldt)
      | 1#3 => some (.modrm .str)
      | _ => none)
  | 0x01#8 => some (.digits fun d =>
      match d with
      | 0#3 => some (.modrm .sgdt)
      | 1#3 => some (.modrm .sidt)
      | 4#3 => some (.modrm .smsw)
      | _ => none)
  | 0x90#8 => some (.found (.modrm .seto))
  | 0x91#8 => some (.found (.modrm .setno))
  | 0x92#8 => some (.found (.modrm .setb))
  | 0x93#8 => some (.found (.modrm .setae))
  | 0x94#8 => some (.found (.modrm .sete))
  | 0x95#8 => some (.found (.modrm .setne))
  | 0x96#8 => some (.found (.modrm .setbe))
  | 0x97#8 => some (.found (.modrm .seta))
  | 0x98#8 => some (.found (.modrm .sets))
  | 0x99#8 => some (.found (.modrm .setns))
  | 0x9A#8 => some (.found (.modrm .setp))
  | 0x9B#8 => some (.found (.modrm .setnp))
  | 0x9C#8 => some (.found (.modrm .setl))
  | 0x9D#8 => some (.found (.modrm .setge))
  | 0x9E#8 => some (.found (.modrm .setle))
  | 0x9F#8 => some (.found (.modrm .setg))
  | 0xA4#8 => some (.found (pick osz (.rmRegImm8 .shldRm16R16Imm8) (.rmRegImm8 .shldRm32R32Imm8)))
  | 0xA5#8 => some (.found (pick osz (.rmReg .shldRm16R16Cl) (.rmReg .shldRm32R32Cl)))
  | 0xAC#8 => some (.found (pick osz (.rmRegImm8 .shrdRm16R16Imm8) (.rmRegImm8 .shrdRm32R32Imm8)))
  | 0xAD#8 => some (.found (pick osz (.rmReg .shrdRm16R16Cl) (.rmReg .shrdRm32R32Cl)))
  | _ => none

/-- Step 2 of R107: the opcode, one byte or 0F and a second byte. -/
def decodeOpcode (osz : Size) : List Byte → Except DecodeError (OpcodeRow × List Byte)
  | [] => .error .truncated
  | b :: rest =>
    if b = 0x0F then
      match rest with
      | [] => .error .truncated
      | b2 :: rest2 =>
        match twoByteOpcode osz b2 with
        | none => .error (.unlistedOpcode0F b2)
        | some row => .ok (row, rest2)
    else
      match oneByteOpcode osz b with
      | none => .error (.unlistedOpcode b)
      | some row => .ok (row, rest)

/-- The row that an opcode and the `reg` field of the next byte give (step 3 of R107). -/
def OpcodeRow.form : OpcodeRow → List Byte → Except DecodeError RowForm
  | .found f, _ => .ok f
  | .digits _, [] => .error .truncated
  | .digits f, b :: _ =>
    match f (b.extractLsb' 3 3) with
    | none => .error (.unlistedDigit (b.extractLsb' 3 3))
    | some g => .ok g

/-- Step 4 of R107: ModRM, SIB, displacement and immediate as the row requires. -/
def RowForm.operands (p : Prefixes) (addrsize : Size) :
    RowForm → List Byte → Except DecodeError (Instr × List Byte)
  | .plain mk, bs => .ok (mk p, bs)
  | .imm n mk, bs =>
    match decodeField n bs with
    | .error e => .error e
    | .ok (v, rest) => .ok (mk p v, rest)
  | .modrm mk, bs =>
    match decodeRM addrsize bs with
    | .error e => .error e
    | .ok (rm, _, rest) => .ok (mk p rm, rest)
  | .rmImm n mk, bs =>
    match decodeRM addrsize bs with
    | .error e => .error e
    | .ok (rm, _, rest) =>
      match decodeField n rest with
      | .error e => .error e
      | .ok (v, rest2) => .ok (mk p rm v, rest2)
  | .rmReg mk, bs =>
    match decodeRM addrsize bs with
    | .error e => .error e
    | .ok (rm, r, rest) => .ok (mk p rm r, rest)
  | .rmRegImm8 mk, bs =>
    match decodeRM addrsize bs with
    | .error e => .error e
    | .ok (rm, r, rest) =>
      match decodeField 8 rest with
      | .error e => .error e
      | .ok (v, rest2) => .ok (mk p rm r v, rest2)

/-- The decoder (R107): the instruction at the head of the bytes in code of the given `DEFAULT_SIZE`, and the bytes after it; or why there is none. -/
def decode (dflt : Size) (bs : List Byte) : Except DecodeError (Instr × List Byte) :=
  match decodePrefixes Prefixes.none bs with
  | .error e => .error e
  | .ok (p, bs1) =>
    match decodeOpcode (p.operandSize dflt) bs1 with
    | .error e => .error e
    | .ok (row, bs2) =>
      match row.form bs2 with
      | .error e => .error e
      | .ok f => f.operands p (p.addressSize dflt) bs2

/-- The bytes of an instruction word of the opcode table: bit 0 is the least significant bit of the first byte, and the bits above `nbits` are 0. -/
def wordBytes (nbits w : Nat) : List Byte := natToBytes Config.longestInstr (w % 2 ^ nbits)

/-- The instruction that the decoder reads from a word of the opcode table, in code of the `DEFAULT_SIZE` that the machine has after reset (log entry 32). -/
def decodeTableWord (nbits w : Nat) : Option Instr :=
  match decode Config.resetDefaultSize (wordBytes nbits w) with
  | .error _ => none
  | .ok (i, _) => some i

/-! ## Encoding -/

/-- The bytes of the prefixes: 66h, 67h, segment override, of those there are (R92). -/
def encodePrefixes (p : Prefixes) : List Byte :=
  (if p.opsize then [0x66#8] else []) ++ (if p.addrsize then [0x67#8] else []) ++
    match p.seg with
    | none => []
    | some .es => [0x26#8]
    | some .cs => [0x2E#8]
    | some .ss => [0x36#8]
    | some .ds => [0x3E#8]
    | some .fs => [0x64#8]
    | some .gs => [0x65#8]

/-- The ModRM byte (R94) and the SIB byte (R100): two bits, three bits, three bits. -/
def packByte (hi : BitVec 2) (mid lo : BitVec 3) : Byte := hi ++ mid ++ lo

/-- The `mod` field that a displacement calls for (R98, R99). -/
def Disp.mod {n : Nat} : Disp n → BitVec 2
  | .none => 0
  | .d8 _ => 1
  | .full _ => 2

/-- The bytes of a displacement (R101). -/
def Disp.encode {n : Nat} : Disp n → List Byte
  | .none => []
  | .d8 v => [v]
  | .full v => toBytes (n / 8) v

/-- The `rm` field of a 16-bit base (R98). -/
def Base16.bits : Base16 → BitVec 3
  | .bxSi => 0
  | .bxDi => 1
  | .bpSi => 2
  | .bpDi => 3
  | .si => 4
  | .di => 5
  | .bp => 6
  | .bx => 7

/-- The `index` field of a SIB byte (R100). -/
def Index.bits : Index → BitVec 3
  | .none => 4
  | .scaled index _ => index

/-- The `ss` field of a SIB byte (R100). -/
def Index.ss : Index → BitVec 2
  | .none => 0
  | .scaled _ ss => ss

/-- The bytes of a ModRM operand whose byte has the given `reg` field (R94, R98, R99, R100). -/
def encodeRM (reg : BitVec 3) : RM → List Byte
  | .reg n => [packByte 3 reg n]
  | .mem (.a16 (.direct v)) => packByte 0 reg 6 :: toBytes 2 v
  | .mem (.a16 (.based b d)) => packByte d.mod reg b.bits :: d.encode
  | .mem (.a32 (.direct v)) => packByte 0 reg 5 :: toBytes 4 v
  | .mem (.a32 (.based b d)) => packByte d.mod reg b :: d.encode
  | .mem (.a32 (.sib b i d)) => packByte d.mod reg 4 :: packByte i.ss i.bits b :: d.encode
  | .mem (.a32 (.sibNoBase i v)) => packByte 0 reg 4 :: packByte i.ss i.bits 5 :: toBytes 4 v

/-- The opcode and what follows the prefixes, for each row (R105, R106). -/
def encodeBody : Instr → List Byte
  | .sahf _ => [0x9E#8]
  | .salRm8One _ rm => [0xD0#8] ++ encodeRM 4 rm
  | .salRm8Cl _ rm => [0xD2#8] ++ encodeRM 4 rm
  | .salRm8Imm8 _ rm imm => [0xC0#8] ++ encodeRM 4 rm ++ toBytes 1 imm
  | .salRm16One _ rm => [0xD1#8] ++ encodeRM 4 rm
  | .salRm16Cl _ rm => [0xD3#8] ++ encodeRM 4 rm
  | .salRm16Imm8 _ rm imm => [0xC1#8] ++ encodeRM 4 rm ++ toBytes 1 imm
  | .salRm32One _ rm => [0xD1#8] ++ encodeRM 4 rm
  | .salRm32Cl _ rm => [0xD3#8] ++ encodeRM 4 rm
  | .salRm32Imm8 _ rm imm => [0xC1#8] ++ encodeRM 4 rm ++ toBytes 1 imm
  | .sarRm8One _ rm => [0xD0#8] ++ encodeRM 7 rm
  | .sarRm8Cl _ rm => [0xD2#8] ++ encodeRM 7 rm
  | .sarRm8Imm8 _ rm imm => [0xC0#8] ++ encodeRM 7 rm ++ toBytes 1 imm
  | .sarRm16One _ rm => [0xD1#8] ++ encodeRM 7 rm
  | .sarRm16Cl _ rm => [0xD3#8] ++ encodeRM 7 rm
  | .sarRm16Imm8 _ rm imm => [0xC1#8] ++ encodeRM 7 rm ++ toBytes 1 imm
  | .sarRm32One _ rm => [0xD1#8] ++ encodeRM 7 rm
  | .sarRm32Cl _ rm => [0xD3#8] ++ encodeRM 7 rm
  | .sarRm32Imm8 _ rm imm => [0xC1#8] ++ encodeRM 7 rm ++ toBytes 1 imm
  | .shlRm8One _ rm => [0xD0#8] ++ encodeRM 4 rm
  | .shlRm8Cl _ rm => [0xD2#8] ++ encodeRM 4 rm
  | .shlRm8Imm8 _ rm imm => [0xC0#8] ++ encodeRM 4 rm ++ toBytes 1 imm
  | .shlRm16One _ rm => [0xD1#8] ++ encodeRM 4 rm
  | .shlRm16Cl _ rm => [0xD3#8] ++ encodeRM 4 rm
  | .shlRm16Imm8 _ rm imm => [0xC1#8] ++ encodeRM 4 rm ++ toBytes 1 imm
  | .shlRm32One _ rm => [0xD1#8] ++ encodeRM 4 rm
  | .shlRm32Cl _ rm => [0xD3#8] ++ encodeRM 4 rm
  | .shlRm32Imm8 _ rm imm => [0xC1#8] ++ encodeRM 4 rm ++ toBytes 1 imm
  | .shrRm8One _ rm => [0xD0#8] ++ encodeRM 5 rm
  | .shrRm8Cl _ rm => [0xD2#8] ++ encodeRM 5 rm
  | .shrRm8Imm8 _ rm imm => [0xC0#8] ++ encodeRM 5 rm ++ toBytes 1 imm
  | .shrRm16One _ rm => [0xD1#8] ++ encodeRM 5 rm
  | .shrRm16Cl _ rm => [0xD3#8] ++ encodeRM 5 rm
  | .shrRm16Imm8 _ rm imm => [0xC1#8] ++ encodeRM 5 rm ++ toBytes 1 imm
  | .shrRm32One _ rm => [0xD1#8] ++ encodeRM 5 rm
  | .shrRm32Cl _ rm => [0xD3#8] ++ encodeRM 5 rm
  | .shrRm32Imm8 _ rm imm => [0xC1#8] ++ encodeRM 5 rm ++ toBytes 1 imm
  | .sbbAlImm8 _ imm => [0x1C#8] ++ toBytes 1 imm
  | .sbbAxImm16 _ imm => [0x1D#8] ++ toBytes 2 imm
  | .sbbEaxImm32 _ imm => [0x1D#8] ++ toBytes 4 imm
  | .sbbRm8Imm8 _ rm imm => [0x80#8] ++ encodeRM 3 rm ++ toBytes 1 imm
  | .sbbRm16Imm16 _ rm imm => [0x81#8] ++ encodeRM 3 rm ++ toBytes 2 imm
  | .sbbRm32Imm32 _ rm imm => [0x81#8] ++ encodeRM 3 rm ++ toBytes 4 imm
  | .sbbRm16Imm8 _ rm imm => [0x83#8] ++ encodeRM 3 rm ++ toBytes 1 imm
  | .sbbRm32Imm8 _ rm imm => [0x83#8] ++ encodeRM 3 rm ++ toBytes 1 imm
  | .sbbRm8R8 _ rm r => [0x18#8] ++ encodeRM r rm
  | .sbbRm16R16 _ rm r => [0x19#8] ++ encodeRM r rm
  | .sbbRm32R32 _ rm r => [0x19#8] ++ encodeRM r rm
  | .sbbR8Rm8 _ rm r => [0x1A#8] ++ encodeRM r rm
  | .sbbR16Rm16 _ rm r => [0x1B#8] ++ encodeRM r rm
  | .sbbR32Rm32 _ rm r => [0x1B#8] ++ encodeRM r rm
  | .scasM8 _ => [0xAE#8]
  | .scasM16 _ => [0xAF#8]
  | .scasM32 _ => [0xAF#8]
  | .scasb _ => [0xAE#8]
  | .scasw _ => [0xAF#8]
  | .scasd _ => [0xAF#8]
  | .seta _ rm => [0x0F#8, 0x97#8] ++ encodeRM 0 rm
  | .setae _ rm => [0x0F#8, 0x93#8] ++ encodeRM 0 rm
  | .setb _ rm => [0x0F#8, 0x92#8] ++ encodeRM 0 rm
  | .setbe _ rm => [0x0F#8, 0x96#8] ++ encodeRM 0 rm
  | .setc _ rm => [0x0F#8, 0x92#8] ++ encodeRM 0 rm
  | .sete _ rm => [0x0F#8, 0x94#8] ++ encodeRM 0 rm
  | .setg _ rm => [0x0F#8, 0x9F#8] ++ encodeRM 0 rm
  | .setge _ rm => [0x0F#8, 0x9D#8] ++ encodeRM 0 rm
  | .setl _ rm => [0x0F#8, 0x9C#8] ++ encodeRM 0 rm
  | .setle _ rm => [0x0F#8, 0x9E#8] ++ encodeRM 0 rm
  | .setna _ rm => [0x0F#8, 0x96#8] ++ encodeRM 0 rm
  | .setnae _ rm => [0x0F#8, 0x92#8] ++ encodeRM 0 rm
  | .setnb _ rm => [0x0F#8, 0x93#8] ++ encodeRM 0 rm
  | .setnbe _ rm => [0x0F#8, 0x97#8] ++ encodeRM 0 rm
  | .setnc _ rm => [0x0F#8, 0x93#8] ++ encodeRM 0 rm
  | .setne _ rm => [0x0F#8, 0x95#8] ++ encodeRM 0 rm
  | .setng _ rm => [0x0F#8, 0x9E#8] ++ encodeRM 0 rm
  | .setnge _ rm => [0x0F#8, 0x9C#8] ++ encodeRM 0 rm
  | .setnl _ rm => [0x0F#8, 0x9D#8] ++ encodeRM 0 rm
  | .setnle _ rm => [0x0F#8, 0x9F#8] ++ encodeRM 0 rm
  | .setno _ rm => [0x0F#8, 0x91#8] ++ encodeRM 0 rm
  | .setnp _ rm => [0x0F#8, 0x9B#8] ++ encodeRM 0 rm
  | .setns _ rm => [0x0F#8, 0x99#8] ++ encodeRM 0 rm
  | .setnz _ rm => [0x0F#8, 0x95#8] ++ encodeRM 0 rm
  | .seto _ rm => [0x0F#8, 0x90#8] ++ encodeRM 0 rm
  | .setp _ rm => [0x0F#8, 0x9A#8] ++ encodeRM 0 rm
  | .setpe _ rm => [0x0F#8, 0x9A#8] ++ encodeRM 0 rm
  | .setpo _ rm => [0x0F#8, 0x9B#8] ++ encodeRM 0 rm
  | .sets _ rm => [0x0F#8, 0x98#8] ++ encodeRM 0 rm
  | .setz _ rm => [0x0F#8, 0x94#8] ++ encodeRM 0 rm
  | .sgdt _ rm => [0x0F#8, 0x01#8] ++ encodeRM 0 rm
  | .sidt _ rm => [0x0F#8, 0x01#8] ++ encodeRM 1 rm
  | .shldRm16R16Imm8 _ rm r imm => [0x0F#8, 0xA4#8] ++ encodeRM r rm ++ toBytes 1 imm
  | .shldRm32R32Imm8 _ rm r imm => [0x0F#8, 0xA4#8] ++ encodeRM r rm ++ toBytes 1 imm
  | .shldRm16R16Cl _ rm r => [0x0F#8, 0xA5#8] ++ encodeRM r rm
  | .shldRm32R32Cl _ rm r => [0x0F#8, 0xA5#8] ++ encodeRM r rm
  | .shrdRm16R16Imm8 _ rm r imm => [0x0F#8, 0xAC#8] ++ encodeRM r rm ++ toBytes 1 imm
  | .shrdRm32R32Imm8 _ rm r imm => [0x0F#8, 0xAC#8] ++ encodeRM r rm ++ toBytes 1 imm
  | .shrdRm16R16Cl _ rm r => [0x0F#8, 0xAD#8] ++ encodeRM r rm
  | .shrdRm32R32Cl _ rm r => [0x0F#8, 0xAD#8] ++ encodeRM r rm
  | .sldt _ rm => [0x0F#8, 0x00#8] ++ encodeRM 0 rm
  | .smsw _ rm => [0x0F#8, 0x01#8] ++ encodeRM 4 rm
  | .stc _ => [0xF9#8]
  | .std _ => [0xFD#8]
  | .sti _ => [0xFB#8]
  | .stosM8 _ => [0xAA#8]
  | .stosM16 _ => [0xAB#8]
  | .stosM32 _ => [0xAB#8]
  | .stosb _ => [0xAA#8]
  | .stosw _ => [0xAB#8]
  | .stosd _ => [0xAB#8]
  | .str _ rm => [0x0F#8, 0x00#8] ++ encodeRM 1 rm
  | .subAlImm8 _ imm => [0x2C#8] ++ toBytes 1 imm
  | .subAxImm16 _ imm => [0x2D#8] ++ toBytes 2 imm
  | .subEaxImm32 _ imm => [0x2D#8] ++ toBytes 4 imm
  | .subRm8Imm8 _ rm imm => [0x80#8] ++ encodeRM 5 rm ++ toBytes 1 imm
  | .subRm16Imm16 _ rm imm => [0x81#8] ++ encodeRM 5 rm ++ toBytes 2 imm
  | .subRm32Imm32 _ rm imm => [0x81#8] ++ encodeRM 5 rm ++ toBytes 4 imm
  | .subRm16Imm8 _ rm imm => [0x83#8] ++ encodeRM 5 rm ++ toBytes 1 imm
  | .subRm32Imm8 _ rm imm => [0x83#8] ++ encodeRM 5 rm ++ toBytes 1 imm
  | .subRm8R8 _ rm r => [0x28#8] ++ encodeRM r rm
  | .subRm16R16 _ rm r => [0x29#8] ++ encodeRM r rm
  | .subRm32R32 _ rm r => [0x29#8] ++ encodeRM r rm
  | .subR8Rm8 _ rm r => [0x2A#8] ++ encodeRM r rm
  | .subR16Rm16 _ rm r => [0x2B#8] ++ encodeRM r rm
  | .subR32Rm32 _ rm r => [0x2B#8] ++ encodeRM r rm

/-- The bytes of an instruction (R90): prefixes, then the rest. -/
def encode (i : Instr) : List Byte := encodePrefixes i.parts.pre ++ encodeBody i

/-- The length `L` of an instruction in bytes (R104). -/
def instrLength (i : Instr) : Nat := (encode i).length

/-- The first row of the table with the same encoding (R112, `fields.alias_of` of R108): what the words of a second spelling decode to. -/
def canonical : Instr → Instr
  | .shlRm8One p rm => .salRm8One p rm
  | .shlRm8Cl p rm => .salRm8Cl p rm
  | .shlRm8Imm8 p rm imm => .salRm8Imm8 p rm imm
  | .shlRm16One p rm => .salRm16One p rm
  | .shlRm16Cl p rm => .salRm16Cl p rm
  | .shlRm16Imm8 p rm imm => .salRm16Imm8 p rm imm
  | .shlRm32One p rm => .salRm32One p rm
  | .shlRm32Cl p rm => .salRm32Cl p rm
  | .shlRm32Imm8 p rm imm => .salRm32Imm8 p rm imm
  | .scasb p => .scasM8 p
  | .scasw p => .scasM16 p
  | .scasd p => .scasM32 p
  | .setc p rm => .setb p rm
  | .setna p rm => .setbe p rm
  | .setnae p rm => .setb p rm
  | .setnb p rm => .setae p rm
  | .setnbe p rm => .seta p rm
  | .setnc p rm => .setae p rm
  | .setng p rm => .setle p rm
  | .setnge p rm => .setl p rm
  | .setnl p rm => .setge p rm
  | .setnle p rm => .setg p rm
  | .setnz p rm => .setne p rm
  | .setpe p rm => .setp p rm
  | .setpo p rm => .setnp p rm
  | .setz p rm => .sete p rm
  | .stosb p => .stosM8 p
  | .stosw p => .stosM16 p
  | .stosd p => .stosM32 p
  | .sahf p => .sahf p
  | .salRm8One p rm => .salRm8One p rm
  | .salRm8Cl p rm => .salRm8Cl p rm
  | .salRm8Imm8 p rm imm => .salRm8Imm8 p rm imm
  | .salRm16One p rm => .salRm16One p rm
  | .salRm16Cl p rm => .salRm16Cl p rm
  | .salRm16Imm8 p rm imm => .salRm16Imm8 p rm imm
  | .salRm32One p rm => .salRm32One p rm
  | .salRm32Cl p rm => .salRm32Cl p rm
  | .salRm32Imm8 p rm imm => .salRm32Imm8 p rm imm
  | .sarRm8One p rm => .sarRm8One p rm
  | .sarRm8Cl p rm => .sarRm8Cl p rm
  | .sarRm8Imm8 p rm imm => .sarRm8Imm8 p rm imm
  | .sarRm16One p rm => .sarRm16One p rm
  | .sarRm16Cl p rm => .sarRm16Cl p rm
  | .sarRm16Imm8 p rm imm => .sarRm16Imm8 p rm imm
  | .sarRm32One p rm => .sarRm32One p rm
  | .sarRm32Cl p rm => .sarRm32Cl p rm
  | .sarRm32Imm8 p rm imm => .sarRm32Imm8 p rm imm
  | .shrRm8One p rm => .shrRm8One p rm
  | .shrRm8Cl p rm => .shrRm8Cl p rm
  | .shrRm8Imm8 p rm imm => .shrRm8Imm8 p rm imm
  | .shrRm16One p rm => .shrRm16One p rm
  | .shrRm16Cl p rm => .shrRm16Cl p rm
  | .shrRm16Imm8 p rm imm => .shrRm16Imm8 p rm imm
  | .shrRm32One p rm => .shrRm32One p rm
  | .shrRm32Cl p rm => .shrRm32Cl p rm
  | .shrRm32Imm8 p rm imm => .shrRm32Imm8 p rm imm
  | .sbbAlImm8 p imm => .sbbAlImm8 p imm
  | .sbbAxImm16 p imm => .sbbAxImm16 p imm
  | .sbbEaxImm32 p imm => .sbbEaxImm32 p imm
  | .sbbRm8Imm8 p rm imm => .sbbRm8Imm8 p rm imm
  | .sbbRm16Imm16 p rm imm => .sbbRm16Imm16 p rm imm
  | .sbbRm32Imm32 p rm imm => .sbbRm32Imm32 p rm imm
  | .sbbRm16Imm8 p rm imm => .sbbRm16Imm8 p rm imm
  | .sbbRm32Imm8 p rm imm => .sbbRm32Imm8 p rm imm
  | .sbbRm8R8 p rm r => .sbbRm8R8 p rm r
  | .sbbRm16R16 p rm r => .sbbRm16R16 p rm r
  | .sbbRm32R32 p rm r => .sbbRm32R32 p rm r
  | .sbbR8Rm8 p rm r => .sbbR8Rm8 p rm r
  | .sbbR16Rm16 p rm r => .sbbR16Rm16 p rm r
  | .sbbR32Rm32 p rm r => .sbbR32Rm32 p rm r
  | .scasM8 p => .scasM8 p
  | .scasM16 p => .scasM16 p
  | .scasM32 p => .scasM32 p
  | .seta p rm => .seta p rm
  | .setae p rm => .setae p rm
  | .setb p rm => .setb p rm
  | .setbe p rm => .setbe p rm
  | .sete p rm => .sete p rm
  | .setg p rm => .setg p rm
  | .setge p rm => .setge p rm
  | .setl p rm => .setl p rm
  | .setle p rm => .setle p rm
  | .setne p rm => .setne p rm
  | .setno p rm => .setno p rm
  | .setnp p rm => .setnp p rm
  | .setns p rm => .setns p rm
  | .seto p rm => .seto p rm
  | .setp p rm => .setp p rm
  | .sets p rm => .sets p rm
  | .sgdt p rm => .sgdt p rm
  | .sidt p rm => .sidt p rm
  | .shldRm16R16Imm8 p rm r imm => .shldRm16R16Imm8 p rm r imm
  | .shldRm32R32Imm8 p rm r imm => .shldRm32R32Imm8 p rm r imm
  | .shldRm16R16Cl p rm r => .shldRm16R16Cl p rm r
  | .shldRm32R32Cl p rm r => .shldRm32R32Cl p rm r
  | .shrdRm16R16Imm8 p rm r imm => .shrdRm16R16Imm8 p rm r imm
  | .shrdRm32R32Imm8 p rm r imm => .shrdRm32R32Imm8 p rm r imm
  | .shrdRm16R16Cl p rm r => .shrdRm16R16Cl p rm r
  | .shrdRm32R32Cl p rm r => .shrdRm32R32Cl p rm r
  | .sldt p rm => .sldt p rm
  | .smsw p rm => .smsw p rm
  | .stc p => .stc p
  | .std p => .std p
  | .sti p => .sti p
  | .stosM8 p => .stosM8 p
  | .stosM16 p => .stosM16 p
  | .stosM32 p => .stosM32 p
  | .str p rm => .str p rm
  | .subAlImm8 p imm => .subAlImm8 p imm
  | .subAxImm16 p imm => .subAxImm16 p imm
  | .subEaxImm32 p imm => .subEaxImm32 p imm
  | .subRm8Imm8 p rm imm => .subRm8Imm8 p rm imm
  | .subRm16Imm16 p rm imm => .subRm16Imm16 p rm imm
  | .subRm32Imm32 p rm imm => .subRm32Imm32 p rm imm
  | .subRm16Imm8 p rm imm => .subRm16Imm8 p rm imm
  | .subRm32Imm8 p rm imm => .subRm32Imm8 p rm imm
  | .subRm8R8 p rm r => .subRm8R8 p rm r
  | .subRm16R16 p rm r => .subRm16R16 p rm r
  | .subRm32R32 p rm r => .subRm32R32 p rm r
  | .subR8Rm8 p rm r => .subR8Rm8 p rm r
  | .subR16Rm16 p rm r => .subR16Rm16 p rm r
  | .subR32Rm32 p rm r => .subR32Rm32 p rm r

end Sys2Proof
end

