-- ==== Sys2Proof/Machine/State.lean ====
section
/-! DEFINITION. The state of the machine (`10_state.md` rule R19, `70_reset_and_hazards.md` rule R321), the reasons a step stops, and the state after reset. Plain data throughout. -/

namespace Sys2Proof.Machine

open Sys2Proof

/-- The flags, one bit each (`10_state.md` rule R28), under the spec's names. -/
structure Flags where
  CF : Bool
  PF : Bool
  AF : Bool
  ZF : Bool
  SF : Bool
  DF : Bool
  IF : Bool
  OF : Bool
deriving DecidableEq, Repr

/-- The operating mode `MODE` (`00_scope.md` rule R7). -/
inductive Mode where
  /-- Protected Mode -/
  | prot
  /-- Real Address Mode -/
  | real
  /-- Virtual 8086 Mode -/
  | v86
deriving DecidableEq, Repr

/-- GDTR or IDTR: a 32-bit BASE and a 16-bit LIMIT (R40, R41). -/
structure DescTable where
  base : Dword
  limit : Half
deriving DecidableEq, Repr

/-- A segment register (R39): its selector, and the base its hidden descriptor holds in Protected Mode. -/
structure Segment where
  selector : Half
  base : Dword
deriving DecidableEq, Repr

/-- The six segment registers (R39). -/
structure Segments where
  es : Segment
  cs : Segment
  ss : Segment
  ds : Segment
  fs : Segment
  gs : Segment
deriving DecidableEq, Repr

/-- What a memory access is for (`20_memory.md` rule R64). -/
inductive AccessKind where
  | read
  | write
  | readwrite
deriving DecidableEq, Repr

/-- Why an access fails that passes the offset check of its mode (R70, R72): the address is illegal, or a page fault with its opaque code (R283). -/
inductive Flaw where
  | illegal
  | pageFault (code : Nat)
deriving DecidableEq, Repr

/-- One piece of the parameter `Access` (R64): the accesses of `n` bytes of one kind at offsets `lo` to `hi` of a segment have this flaw. Log entry 6. -/
structure AccessRule where
  seg : Seg
  lo : Dword
  hi : Dword
  n : Nat
  kind : AccessKind
  flaw : Flaw
deriving DecidableEq, Repr

/-- One piece of the parameter `Access` (R64): the bytes at offsets `lo` to `hi` of a segment stand at the physical addresses from `phys` on. Log entry 7. -/
structure LocationRule where
  seg : Seg
  lo : Dword
  hi : Dword
  phys : Dword
deriving DecidableEq, Repr

/-- One answer of the parameter `Access` (R64): the request for as many bytes as are listed, at this segment and offset and of this kind, finds them at these physical addresses, in order of increasing offset. `addrsize` says for which address size, none for both. Log entry 7. -/
structure Placement where
  seg : Seg
  off : Dword
  addrsize : Option Size
  kind : AccessKind
  bytes : List Dword
deriving DecidableEq, Repr

/-- `PROGRAM` (R84): bytes at the contiguous offsets of CS from `start` on. -/
structure Program where
  start : Dword
  bytes : List Byte
deriving DecidableEq, Repr

/-- Memory: the physical bytes that differ from what nothing has written, by rising address. Its canonical form is `Memory.wf`. -/
abbrev Memory := List Host.Cell

/-- The machine's state (R19, R321). -/
structure State where
  /-- `x[0]` to `x[7]` (R20) -/
  regs : Vector Dword 8
  /-- the offset in CS of the instruction to execute (R26, R27) -/
  pc : Dword
  /-- the eight flags (R28) -/
  flags : Flags
  /-- `MODE` (R7) -/
  mode : Mode
  /-- `DEFAULT_SIZE` (R6) -/
  defaultSize : Size
  /-- `CPL` (R38) -/
  cpl : BitVec 2
  /-- `IOPL` (R38) -/
  iopl : BitVec 2
  /-- the segment registers (R39) -/
  segs : Segments
  /-- GDTR (R40) -/
  gdtr : DescTable
  /-- IDTR (R41) -/
  idtr : DescTable
  /-- LDTR (R42) -/
  ldtr : Half
  /-- TR (R43) -/
  tr : Half
  /-- CR0, of which MSW is the low half (R44) -/
  cr0 : Dword
  /-- the hidden bit of STI (R46) -/
  stiShadow : Bool
  /-- the segments whose writes fail in Protected Mode (R70), part of `Access` -/
  nonwritable : List Seg
  /-- the accesses that fail otherwise (R70, R72), part of `Access` -/
  accessRules : List AccessRule
  /-- where bytes stand that do not stand at their linear address (R64), part of `Access` -/
  locations : List LocationRule
  /-- the places of the bytes of single requests, which come before `locations` (R64), part of `Access` -/
  placements : List Placement
  /-- physical memory (R60) -/
  mem : Memory
  /-- `PROGRAM` (R84) -/
  program : Program
  /-- the MODEL's own: how many values `undef_N()` has drawn (R36), log entry 5 -/
  draws : Nat
deriving DecidableEq, Repr

/-- The five exceptions (`60_exceptions.md` rule R280). -/
inductive Exc where
  /-- `GP(0)` (R281) -/
  | gp0
  /-- `SS(0)` (R282) -/
  | ss0
  /-- `PF(code)` (R283) -/
  | pf (code : Nat)
  /-- `UD`, Interrupt 6 (R284) -/
  | ud
  /-- `INT13`, Interrupt 13 (R285) -/
  | int13
deriving DecidableEq, Repr

/-- How a run ends that has a meaning (`70_reset_and_hazards.md` rule R325). -/
inductive Fault where
  /-- raised by an instruction's meaning: `Exception(name, code, state)` with the state before the instruction (R287, R300). Safe: the spec ends the run here and gives no handler (log entry 11). -/
  | exception (e : Exc) (state : State)
  /-- raised by `step` when `pc` is just past `PROGRAM`: the outcome Completed with its final state (R325). Safe: nothing is claimed of what follows (log entry 12). -/
  | completed (state : State)
deriving DecidableEq, Repr

/-- Why the model gives a run no meaning from some point on. Safe in every case. -/
inductive Refusal where
  /-- raised by `exec` for an instruction without a meaning in the model; no arm does so -/
  | notModelled (mnemonic : String)
  /-- raised by `step` for bytes that the decoder rejects (`30_encoding.md` rules R93, R100, R110, `10_state.md` rule R27). Safe. -/
  | undecodable (e : DecodeError)
  /-- raised by `step` when `pc` is neither inside `PROGRAM` nor just past it: the spec does not say what a run is there, and the model refuses it (DESIGN CHOICE, log entry 39). Safe. -/
  | fetchOutsideProgram
  /-- raised by an instruction that would store into `PROGRAM` (`20_memory.md` rule R84, `92_eei_decisions.md` D26). Safe. -/
  | storeIntoProgram
deriving DecidableEq, Repr

/-- The outcome of an instruction's meaning. -/
abbrev Result := Host.Outcome State Fault Refusal

/-- The machine after reset. The spec states no reset value (R47, R320): the values are the family's of `93_implementation_defined.md` G20 where it has one (PRESUMED, log entry 1), else zero (DESIGN CHOICE, log entries 2, 4, 5, 6, 7, 13); of CR0 only PE = 0 and PG = 0 are the family's, its other bits are 0 by choice (DESIGN CHOICE, log entry 40); `sti_shadow` is 0 by the spec's decision D14 (log entry 3). No program is placed. -/
def State.reset : State where
  regs := #v[0, 0, 0x00000300, 0, 0, 0, 0, 0]
  pc := 0x0000FFF0
  flags := ⟨false, false, false, false, false, false, false, false⟩
  mode := .real
  defaultSize := Config.resetDefaultSize
  cpl := 0
  iopl := 0
  segs := ⟨⟨0, 0⟩, ⟨0xF000, 0xFFFF0000⟩, ⟨0, 0⟩, ⟨0, 0⟩, ⟨0, 0⟩, ⟨0, 0⟩⟩
  gdtr := ⟨0, 0⟩
  idtr := ⟨0, 0x03FF⟩
  ldtr := 0
  tr := 0
  cr0 := 0
  stiShadow := false
  nonwritable := []
  accessRules := []
  locations := [⟨.cs, 0, 0xFFFF, 0xFFFF0000⟩]
  placements := []
  mem := []
  program := ⟨0x0000FFF0, []⟩
  draws := 0

end Sys2Proof.Machine
end

