-- ==== Sys2Proof/Machine/Ops.lean ====
section
/-! DEFINITION. The named operations over registers, memory and the rest of the state that every meaning shares: the register views, the memory, the parameter `Access`, draws, raising an exception and completing an instruction. -/

namespace Sys2Proof.Machine

open Sys2Proof

/-! ## General registers (`10_state.md` rules R20 to R23) -/

/-- `x[i]`, all 32 bits (R20). -/
def State.x (s : State) (i : BitVec 3) : Dword := s.regs[i.toNat]'i.isLt

/-- `x[i] <- v` (R20). -/
def State.setX (s : State) (i : BitVec 3) (v : Dword) : State :=
  { s with regs := s.regs.set i.toNat v i.isLt }

/-- The 32-bit register that register number `i` of a width is a view of (R21, R22). -/
def viewReg (w : Width) (i : BitVec 3) : BitVec 3 :=
  match w with
  | .w8 => i &&& 3
  | .w16 => i
  | .w32 => i

/-- The lowest bit of the view: 8 for AH, CH, DH, BH, else 0 (R22). -/
def viewLow (w : Width) (i : BitVec 3) : Nat :=
  match w with
  | .w8 => if i.toNat < 4 then 0 else 8
  | .w16 => 0
  | .w32 => 0

/-- `old` with the `n` bits from `lo` on replaced by `v`. -/
def insertBits (old : Dword) (lo : Nat) {n : Nat} (v : BitVec n) : Dword :=
  (old &&& ~~~((BitVec.allOnes n).setWidth 32 <<< lo)) ||| (v.setWidth 32 <<< lo)

/-- The read of register number `i` of a width (R21, R22). -/
def readReg (w : Width) (i : BitVec 3) (s : State) : BitVec w.bits :=
  (s.x (viewReg w i)).extractLsb' (viewLow w i) w.bits

/-- The write of register number `i` of a width: only the bits of the view change (R23). -/
def writeReg (w : Width) (i : BitVec 3) (v : BitVec w.bits) (s : State) : State :=
  s.setX (viewReg w i) (insertBits (s.x (viewReg w i)) (viewLow w i) v)

/-! ## Updates of the other state -/

/-- The state with other flags. -/
def State.withFlags (s : State) (f : Flags) : State := { s with flags := f }

/-- The state with another memory. -/
def State.withMem (s : State) (m : Memory) : State := { s with mem := m }

/-- The state after one more draw. -/
def State.drawn (s : State) : State := { s with draws := s.draws + 1 }

/-- The bit that `undef_1()` draws next (R36). -/
def State.nextBit (s : State) : Bool := Config.undefBit s.draws

/-- The `n` bits that `undef_n()` draws next (R36). -/
def State.nextBits (s : State) (n : Nat) : BitVec n := Config.undefBits n s.draws

/-! ## Memory (`20_memory.md` rules R60, R66, R67, R76) -/

/-- The byte at a physical address: the last one written, or what a byte that nothing has written reads as (log entry 4). -/
def Memory.read : Memory → Nat → Byte
  | [], _ => Config.unwrittenByte
  | (k, v) :: rest, a => if k = a then v else Memory.read rest a

/-- The memory with one byte written, in canonical form. -/
def Memory.write : Memory → Nat → Byte → Memory
  | [], a, b => if b = Config.unwrittenByte then [] else [(a, b)]
  | (k, v) :: rest, a, b =>
    if a < k then (if b = Config.unwrittenByte then (k, v) :: rest else (a, b) :: (k, v) :: rest)
    else if a = k then (if b = Config.unwrittenByte then rest else (a, b) :: rest)
    else (k, v) :: Memory.write rest a b

/-- Every address of the list is above `lo`, at most 32 bits long, and rises; no entry equals what an unlisted address reads as. -/
def Memory.wfFrom : Nat → Memory → Bool
  | _, [] => true
  | lo, (k, v) :: rest =>
    decide (lo ≤ k) && decide (k < 2 ^ 32) && (v != Config.unwrittenByte) && Memory.wfFrom (k + 1) rest

/-- The canonical form of a memory. -/
def Memory.wf (m : Memory) : Bool := Memory.wfFrom 0 m

/-- The bytes at some physical addresses, in order (R66). -/
def Memory.load (m : Memory) (p : List Dword) : List Byte := p.map fun a => m.read a.toNat

/-- Some bytes written at some physical addresses, in order (R67). -/
def Memory.store : Memory → List Dword → List Byte → Memory
  | m, a :: p, b :: bs => Memory.store (Memory.write m a.toNat b) p bs
  | m, _, _ => m

/-! ## Access (R62, R64, R68, R70 to R73) -/

/-- A place that a program names: segment, offset, and the address size that offsets wrap by (R60, R64). -/
structure MemRef where
  seg : Seg
  off : Dword
  addrsize : Size
deriving DecidableEq, Repr

/-- The segment register of a name (R39). -/
def State.segment (s : State) : Seg → Segment
  | .es => s.segs.es
  | .cs => s.segs.cs
  | .ss => s.segs.ss
  | .ds => s.segs.ds
  | .fs => s.segs.fs
  | .gs => s.segs.gs

/-- The offsets of the `n` bytes of an operand, each reduced mod 2^16 with 16-bit addressing (R64). -/
def MemRef.offsets (r : MemRef) (n : Nat) : List Dword :=
  (List.range n).map fun i =>
    match r.addrsize with
    | .s16 => (r.off + BitVec.ofNat 32 i) &&& 0xFFFF
    | .s32 => r.off + BitVec.ofNat 32 i

/-- The linear address of an offset: 16 times the selector, or in Protected Mode the hidden base, plus the offset (R39, R71). Log entry 10. -/
def linearAddress (s : State) (seg : Seg) (o : Dword) : Dword :=
  match s.mode with
  | .prot => (s.segment seg).base + o
  | .real => 16 * (s.segment seg).selector.setWidth 32 + o
  | .v86 => 16 * (s.segment seg).selector.setWidth 32 + o

/-- Whether a location rule is about this byte. -/
def LocationRule.covers (l : LocationRule) (seg : Seg) (o : Dword) : Bool :=
  l.seg == seg && decide (l.lo ≤ o) && decide (o ≤ l.hi)

/-- The physical address of the byte at an offset of a segment, where no placement speaks: as the first location rule about it says, else its linear address (R64). Log entries 7 and 10. -/
def physicalAddress (s : State) (seg : Seg) (o : Dword) : Dword :=
  match s.locations.find? (fun l => l.covers seg o) with
  | some l => l.phys + (o - l.lo)
  | none => linearAddress s seg o

/-- Whether a flaw of accesses of kind `k` is one of accesses of kind `asked`: a `readwrite` fails whenever a `read` or a `write` would (R68). -/
def AccessKind.hits (k asked : AccessKind) : Bool := k == asked || asked == .readwrite

/-- Whether accesses of the kind write (R70). -/
def AccessKind.writes : AccessKind → Bool
  | .read => false
  | .write => true
  | .readwrite => true

/-- Whether an access rule is about this access. -/
def AccessRule.covers (a : AccessRule) (r : MemRef) (n : Nat) (kind : AccessKind) : Bool :=
  a.seg == r.seg && decide (a.lo ≤ r.off) && decide (r.off ≤ a.hi) && a.n == n && a.kind.hits kind

/-- The code of a page-fault flaw (R283). -/
def Flaw.pageCode : Flaw → Option Nat
  | .illegal => none
  | .pageFault code => some code

/-- Whether the effective address is illegal (R70). -/
def illegalAccess (s : State) (r : MemRef) (n : Nat) (kind : AccessKind) : Bool :=
  s.accessRules.any fun a => a.covers r n kind && a.flaw == .illegal

/-- The code of the page fault that the access meets, if it meets one (R70, R72). -/
def pageFaultOf (s : State) (r : MemRef) (n : Nat) (kind : AccessKind) : Option Nat :=
  s.accessRules.findSome? fun a => if a.covers r n kind then a.flaw.pageCode else none

/-- Whether a part of the operand lies outside of 0 to 0FFFFH, computed without wrap-around (R71). -/
def outside64K (r : MemRef) (n : Nat) : Bool := decide (0xFFFF < r.off.toNat + n - 1)

/-- Whether a placement is about this access. -/
def Placement.covers (q : Placement) (r : MemRef) (n : Nat) (kind : AccessKind) : Bool :=
  q.seg == r.seg && q.off == r.off && q.addrsize.all (· == r.addrsize) && q.kind == kind && q.bytes.length == n

/-- The first placement about an access, if there is one. -/
def placementOf (s : State) (r : MemRef) (n : Nat) (kind : AccessKind) : Option Placement :=
  s.placements.find? fun q => q.covers r n kind

/-- The physical addresses of the `n` bytes of an operand, in order (R64): those of the first placement about the access, else byte by byte. Log entry 7. -/
def physicalAddresses (s : State) (r : MemRef) (n : Nat) (kind : AccessKind) : List Dword :=
  match placementOf s r n kind with
  | some q => q.bytes
  | none => (r.offsets n).map (physicalAddress s r.seg)

/-- The page check, and the answer `ok(p)` (R70, R72). -/
def pageCheck (s : State) (r : MemRef) (n : Nat) (kind : AccessKind) : Except Exc (List Dword) :=
  match pageFaultOf s r n kind with
  | some code => .error (.pf code)
  | none => .ok (physicalAddresses s r n kind)

/-- `Access(MODE, seg, off, n, kind)` (R64): the one answer to an access, by the lists of R70 (Protected Mode), R71 (Real Address Mode) and R72 (Virtual 8086 Mode), segment checks before the page check (R295, D24). -/
def access (s : State) (r : MemRef) (n : Nat) (kind : AccessKind) : Except Exc (List Dword) :=
  match s.mode with
  | .real => if outside64K r n then .error .int13 else .ok (physicalAddresses s r n kind)
  | .v86 => if outside64K r n then .error .int13 else pageCheck s r n kind
  | .prot =>
    if kind.writes && s.nonwritable.contains r.seg then .error .gp0
    else if illegalAccess s r n kind then .error (if r.seg = .ss then .ss0 else .gp0)
    else pageCheck s r n kind

/-! ## `PROGRAM` (R84) -/

/-- The offset of the `k`-th byte of `PROGRAM`. -/
def Program.offset (g : Program) (k : Nat) : Dword := g.start + BitVec.ofNat 32 k

/-- The physical location of the `k`-th byte of `PROGRAM`: the address that `Access(MODE, CS, o, 1, read)` answers (R84). -/
def programLocation (s : State) (k : Nat) : Option Dword :=
  match access s ⟨.cs, s.program.offset k, .s32⟩ 1 .read with
  | .ok (a :: _) => some a
  | _ => none

/-- The physical locations of the bytes of `PROGRAM`. -/
def programLocations (s : State) : List Dword :=
  (List.range s.program.bytes.length).filterMap (programLocation s)

/-- Whether a store to these addresses includes a byte of `PROGRAM` (R84). -/
def hitsProgram (s : State) (p : List Dword) : Bool :=
  p.any fun a => (programLocations s).contains a

/-- The write of bytes at physical addresses, refused if it includes a byte of `PROGRAM` (R67, R84). -/
def storeBytes (p : List Dword) (bs : List Byte) (s : State) : Except Refusal State :=
  if hitsProgram s p then .error .storeIntoProgram else .ok (s.withMem (s.mem.store p bs))

/-! ## Exceptions and completion -/

/-- Taking an exception (`60_exceptions.md` rule R300): the run ends with the exception and the unchanged state, whose `pc` is the offset of the instruction. The spec describes no entry into a handler and no return from one (R296, R297). -/
def raise (e : Exc) (s : State) : Result := .fault (.exception e s)

/-- The offset after `L` more bytes: mod 2^32, and mod 2^16 when `DEFAULT_SIZE` = 16 (R27). -/
def advance (dflt : Size) (pc : Dword) (L : Nat) : Dword :=
  match dflt with
  | .s16 => (pc + BitVec.ofNat 32 L) &&& 0xFFFF
  | .s32 => pc + BitVec.ofNat 32 L

/-- Completing an instruction of length `L` other than STI: `pc` moves past it (R27) and `sti_shadow` is cleared (`48_stc_std_sti_stos_str.md` rule R256). -/
def State.retire (s : State) (L : Nat) : State :=
  { s with pc := advance s.defaultSize s.pc L, stiShadow := false }

/-- Completing STI: `pc` moves past it and `sti_shadow` is set (R255, R256). -/
def State.retireShadowed (s : State) (L : Nat) : State :=
  { s with pc := advance s.defaultSize s.pc L, stiShadow := true }

/-- Completing an instruction after its store: the refusal of the store, or the completed state. -/
def commit (L : Nat) (r : Except Refusal State) : Result :=
  match r with
  | .error e => .refused e
  | .ok s => .next (s.retire L)

/-- Whether an external interrupt could be recognised at the boundary before the next instruction (R256 item 1, R290). The model delivers none (R291, log entry 16). -/
def State.interruptible (s : State) : Bool := s.flags.IF && !s.stiShadow

end Sys2Proof.Machine
end

