-- ==== Sys2Proof/Machine/Operands.lean ====
section
/-! DEFINITION. Operand forms: effective addresses (`30_encoding.md` rules R98 to R101), the `r/m` operand as a place that is read and written (R94, `20_memory.md` rules R66 to R68), and the string index (`43_scas.md` rule R170). -/

namespace Sys2Proof.Machine

open Sys2Proof

/-- The value of a displacement: absent is 0, one byte is sign-extended (R98, R99). -/
def Disp.value {n : Nat} : Disp n → BitVec n
  | .none => 0
  | .d8 v => v.signExtend n
  | .full v => v

/-- The registers of a 16-bit base (R98); BX = 3, BP = 5, SI = 6, DI = 7. -/
def Base16.value (s : State) : Base16 → Half
  | .bxSi => readReg .w16 3 s + readReg .w16 6 s
  | .bxDi => readReg .w16 3 s + readReg .w16 7 s
  | .bpSi => readReg .w16 5 s + readReg .w16 6 s
  | .bpDi => readReg .w16 5 s + readReg .w16 7 s
  | .si => readReg .w16 6 s
  | .di => readReg .w16 7 s
  | .bp => readReg .w16 5 s
  | .bx => readReg .w16 3 s

/-- The default segment of a 16-bit base: SS where it has BP (R98). -/
def Base16.seg : Base16 → Seg
  | .bpSi => .ss
  | .bpDi => .ss
  | .bp => .ss
  | .bxSi => .ds
  | .bxDi => .ds
  | .si => .ds
  | .di => .ds
  | .bx => .ds

/-- The offset of a 16-bit memory operand, mod 2^16 (R98). -/
def Mem16.offset (s : State) : Mem16 → Half
  | .direct v => v
  | .based b d => Base16.value s b + Disp.value d

/-- The default segment of a 16-bit memory operand (R98). -/
def Mem16.seg : Mem16 → Seg
  | .direct _ => .ds
  | .based b _ => Base16.seg b

/-- The index of a SIB byte, scaled (R100). -/
def Index.value (s : State) : Index → Dword
  | .none => 0
  | .scaled i ss => s.x i <<< ss.toNat

/-- The default segment of a 32-bit base register: SS for ESP and EBP (R99, R100). -/
def baseSeg (b : BitVec 3) : Seg := if b = 4 ∨ b = 5 then .ss else .ds

/-- The offset of a 32-bit memory operand, mod 2^32 (R99, R100). -/
def Mem32.offset (s : State) : Mem32 → Dword
  | .direct v => v
  | .based b d => s.x b + Disp.value d
  | .sib b i d => s.x b + Index.value s i + Disp.value d
  | .sibNoBase i v => Index.value s i + v

/-- The default segment of a 32-bit memory operand (R99, R100). -/
def Mem32.seg : Mem32 → Seg
  | .direct _ => .ds
  | .based b _ => baseSeg b
  | .sib b _ _ => baseSeg b
  | .sibNoBase _ _ => .ds

/-- The place that a ModRM memory operand names: its segment, or the one of an override prefix, and its offset (R62, R92). -/
def memRef (p : Prefixes) (m : MemOperand) (s : State) : MemRef :=
  match m with
  | .a16 m16 => ⟨p.seg.getD (Mem16.seg m16), (Mem16.offset s m16).setWidth 32, .s16⟩
  | .a32 m32 => ⟨p.seg.getD (Mem32.seg m32), Mem32.offset s m32, .s32⟩

/-- Where an operand stands once its access check is passed: a register number, or physical bytes. -/
inductive Place where
  | reg (i : BitVec 3)
  | mem (p : List Dword)
deriving DecidableEq, Repr

/-- The place of the `r/m` operand of `n` bytes, or the exception of its access (R64, R94). -/
def operandPlace (p : Prefixes) (rm : RM) (n : Nat) (kind : AccessKind) (s : State) : Except Exc Place :=
  match rm with
  | .reg i => .ok (.reg i)
  | .mem m =>
    match access s (memRef p m s) n kind with
    | .error e => .error e
    | .ok a => .ok (.mem a)

/-- The value at a place (R22, R66). -/
def readPlace (w : Width) (pl : Place) (s : State) : BitVec w.bits :=
  match pl with
  | .reg i => readReg w i s
  | .mem p => ofBytes w.bits (s.mem.load p)

/-- The write of a value at a place (R23, R67, R84). -/
def writePlace (w : Width) (pl : Place) (v : BitVec w.bits) (s : State) : Except Refusal State :=
  match pl with
  | .reg i => .ok (writeReg w i v s)
  | .mem p => storeBytes p (toBytes w.bytes v) s

/-- A read-modify-write of the `r/m` operand (R68): the access check, then `f` of the old value and the state gives the new value, or none for an operand that stays as it is, and the state with the other effects; then the write. -/
def updateRM (w : Width) (L : Nat) (p : Prefixes) (rm : RM)
    (f : BitVec w.bits → State → Option (BitVec w.bits) × State) (s : State) : Result :=
  match operandPlace p rm w.bytes .readwrite s with
  | .error e => raise e s
  | .ok pl =>
    match f (readPlace w pl s) s with
    | (none, s1) => .next (s1.retire L)
    | (some v, s1) => commit L (writePlace w pl v s1)

/-- A read of the `r/m` operand, for an instruction whose other effects are `f` of its value and the state (R66). -/
def readRM (w : Width) (L : Nat) (p : Prefixes) (rm : RM) (f : BitVec w.bits → State → State)
    (s : State) : Result :=
  match operandPlace p rm w.bytes .read s with
  | .error e => raise e s
  | .ok pl => .next ((f (readPlace w pl s) s).retire L)

/-- A write of a value to the `r/m` operand, which is not read (R67). -/
def writeRM (w : Width) (L : Nat) (p : Prefixes) (rm : RM) (v : BitVec w.bits) (s : State) : Result :=
  match operandPlace p rm w.bytes .write s with
  | .error e => raise e s
  | .ok pl => commit L (writePlace w pl v s)

/-- The place of a string operand: always in ES, at DI or EDI by the address size (R62, R170, R171, R260, R261). -/
def stringRef (addrsize : Size) (s : State) : MemRef :=
  match addrsize with
  | .s16 => ⟨.es, (readReg .w16 7 s).setWidth 32, .s16⟩
  | .s32 => ⟨.es, s.x 7, .s32⟩

/-- DI or EDI moved by `k` bytes, up when DF = 0 and down when DF = 1 (R37, R170, R260). -/
def stepIndex (addrsize : Size) (k : Nat) (s : State) : State :=
  match addrsize with
  | .s16 =>
    writeReg .w16 7
      (if s.flags.DF then readReg .w16 7 s - BitVec.ofNat 16 k else readReg .w16 7 s + BitVec.ofNat 16 k) s
  | .s32 =>
    writeReg .w32 7 (if s.flags.DF then s.x 7 - BitVec.ofNat 32 k else s.x 7 + BitVec.ofNat 32 k) s

end Sys2Proof.Machine
end

