-- ==== Sys2Proof/Machine/Flags.lean ====
section
/-! DEFINITION. Every result and flag computation: subtraction (`10_state.md` rule R34), the flags of a result (R31 to R33), the shifts (`41_shift_sal_sar_shl_shr.md` rules R141 to R152), the double shifts (`46_shld_shrd.md` rules R220 to R230) and the conditions of SETcc (`44_setcc.md` rule R181). -/

namespace Sys2Proof.Machine

open Sys2Proof

/-- How many of the bits 0 to `k - 1` are 1. -/
def onesBelow {n : Nat} (r : BitVec n) : Nat → Nat
  | 0 => 0
  | k + 1 => onesBelow r k + (r.getLsbD k).toNat

/-- `Parity8(r)`: whether bits 7:0 hold an even number of 1 bits (R31). -/
def parity8 {n : Nat} (r : BitVec n) : Bool := onesBelow r 8 % 2 == 0

/-- `SetResultFlags_n(r)`: SF, ZF and PF from a result (R32, R33). -/
def Flags.ofResult (f : Flags) {n : Nat} (r : BitVec n) : Flags :=
  { f with SF := r.msb, ZF := r == 0, PF := parity8 r }

/-- The exact difference `uint(a) - uint(b) - c` (R34). -/
def exactDiff {n : Nat} (a b : BitVec n) (c : Bool) : Int := (a.toNat : Int) - b.toNat - c.toNat

/-- The result of `Sub_n(a, b, c)` (R34). -/
def subResult {n : Nat} (a b : BitVec n) (c : Bool) : BitVec n := BitVec.ofInt n (exactDiff a b c)

/-- The six flags of `Sub_n(a, b, c)` (R34). -/
def subFlags {n : Nat} (a b : BitVec n) (c : Bool) (f : Flags) : Flags :=
  { f with
    CF := decide (exactDiff a b c < 0)
    AF := decide (((a.toNat % 16 : Nat) : Int) - ((b.toNat % 16 : Nat) : Int) - c.toNat < 0)
    OF := decide (a.toInt - b.toInt - c.toNat < -(2 ^ (n - 1)) ∨ 2 ^ (n - 1) ≤ a.toInt - b.toInt - c.toNat)
    SF := (subResult a b c).msb
    ZF := subResult a b c == 0
    PF := parity8 (subResult a b c) }

/-- The shift instructions (R140). -/
inductive ShiftOp where
  /-- SAL and SHL (R150) -/
  | sal
  /-- SAR (R151) -/
  | sar
  /-- SHR (R152) -/
  | shr
deriving DecidableEq, Repr

/-- One step of the loop of R143: the value after it, and CF. -/
def shiftStep (op : ShiftOp) {n : Nat} (v : BitVec n) : BitVec n × Bool :=
  match op with
  | .sal => (v <<< 1, v.msb)
  | .sar => (v.sshiftRight 1, v.getLsbD 0)
  | .shr => (v >>> 1, v.getLsbD 0)

/-- The loop of R143. -/
def shiftLoop (op : ShiftOp) {n : Nat} : Nat → BitVec n → Bool → BitVec n × Bool
  | 0, v, c => (v, c)
  | k + 1, v, _ => shiftLoop op k (shiftStep op v).1 (shiftStep op v).2

/-- OF after a single shift of `a`, with the result and the new carry (R150, R151, R152). -/
def singleShiftOF (op : ShiftOp) {n : Nat} (a r : BitVec n) (cf : Bool) : Bool :=
  match op with
  | .sal => r.msb ^^ cf
  | .sar => false
  | .shr => a.msb

/-- Where the count of a shift comes from (R140, R221). -/
inductive CountSource where
  | one
  | cl
  | imm (v : Byte)
deriving DecidableEq, Repr

/-- The count that a shift uses: its low five bits (R141, R221); CL is 8-bit register 1. -/
def shiftCount (c : CountSource) (s : State) : Nat :=
  match c with
  | .one => 1
  | .cl => (readReg .w8 1 s).toNat % 32
  | .imm v => v.toNat % 32

/-- What a shift makes of its operand and the flags. Count 0: only OF is drawn (R146). Else the loop (R143), CF (R145), SF, ZF, PF, and a drawn AF (R147); OF by the instruction for a single shift, else drawn (R148). -/
def shiftOperand (op : ShiftOp) (count : Nat) {n : Nat} (a : BitVec n) (s : State) :
    Option (BitVec n) × State :=
  let r := shiftLoop op count a s.flags.CF
  match count with
  | 0 => (none, (s.withFlags { s.flags with OF := s.nextBit }).drawn)
  | 1 =>
    (some r.1,
      (s.withFlags
        { s.flags.ofResult r.1 with CF := r.2, AF := s.nextBit, OF := singleShiftOF op a r.1 r.2 }).drawn)
  | _ =>
    (some r.1,
      (s.withFlags
        { s.flags.ofResult r.1 with CF := r.2, AF := s.nextBit, OF := s.drawn.nextBit }).drawn.drawn)

/-- The double shift instructions (R220, R230). -/
inductive DoubleOp where
  | shld
  | shrd
deriving DecidableEq, Repr

/-- The result and CF of a double shift by `k`, 0 < `k` < `n`: `a` shifted, the bits of `b` shifted in (R220, R230). -/
def doubleShift (op : DoubleOp) {n : Nat} (a b : BitVec n) (k : Nat) : BitVec n × Bool :=
  match op with
  | .shld => ((a <<< k) ||| (b >>> (n - k)), a.getLsbD (n - k))
  | .shrd => ((a >>> k) ||| (b <<< (n - k)), a.getLsbD (k - 1))

/-- The state after a double shift by the operand width or more: six flags drawn one by one (R223); the operand's draw came first. -/
def drawSixFlags (s : State) : State :=
  { s with
    flags := { s.flags with
      CF := Config.undefBit s.draws
      OF := Config.undefBit (s.draws + 1)
      SF := Config.undefBit (s.draws + 2)
      ZF := Config.undefBit (s.draws + 3)
      AF := Config.undefBit (s.draws + 4)
      PF := Config.undefBit (s.draws + 5) }
    draws := s.draws + 6 }

/-- What a double shift makes of its operand and the flags: nothing for count 0 (R222); a drawn operand and six drawn flags for a count of the width or more (R223); else the shift, CF, SF, ZF, PF, and drawn AF and OF (R224). -/
def doubleOperand (op : DoubleOp) (count : Nat) {n : Nat} (b a : BitVec n) (s : State) :
    Option (BitVec n) × State :=
  if count = 0 then (none, s)
  else if n ≤ count then (some (s.nextBits n), drawSixFlags s.drawn)
  else
    (some (doubleShift op a b count).1,
      (s.withFlags
        { s.flags.ofResult (doubleShift op a b count).1 with
          CF := (doubleShift op a b count).2, AF := s.nextBit, OF := s.drawn.nextBit }).drawn.drawn)

/-- `Cond(cc)` (R181). -/
def Cond.holds (f : Flags) : Cond → Bool
  | .o => f.OF
  | .no => !f.OF
  | .b => f.CF
  | .ae => !f.CF
  | .e => f.ZF
  | .ne => !f.ZF
  | .be => f.CF || f.ZF
  | .a => !f.CF && !f.ZF
  | .s => f.SF
  | .ns => !f.SF
  | .p => f.PF
  | .np => !f.PF
  | .l => f.SF != f.OF
  | .ge => f.SF == f.OF
  | .le => f.ZF || (f.SF != f.OF)
  | .g => !f.ZF && (f.SF == f.OF)

end Sys2Proof.Machine
end

