-- ==== Sys2Proof/Machine/DoubleShift.lean ====
section
/-! DEFINITION. SHLD and SHRD, every form (`46_shld_shrd.md` rules R220 to R230). -/

namespace Sys2Proof.Machine

open Sys2Proof

/-- A double shift of the `r/m` operand with register `r` as `inBits` (R221): the access is a read-modify-write whatever the count is; `inBits` and the count are read before anything changes. -/
def doubleShiftRM (op : DoubleOp) (c : CountSource) (w : Width) (L : Nat) (p : Prefixes) (rm : RM)
    (r : BitVec 3) (s : State) : Result :=
  updateRM w L p rm (fun a s1 => doubleOperand op (shiftCount c s1) (readReg w r s1) a s1) s

/-- `SHLD r/m16,r16,imm8`, 0F A4 /r ib (R220). -/
def execShldRm16R16Imm8 (p : Prefixes) (rm : RM) (r : BitVec 3) (imm : BitVec 8) (s : State) : Result :=
  doubleShiftRM .shld (.imm imm) .w16 (instrLength (.shldRm16R16Imm8 p rm r imm)) p rm r s

/-- `SHLD r/m32,r32,imm8`, 0F A4 /r ib (R220). -/
def execShldRm32R32Imm8 (p : Prefixes) (rm : RM) (r : BitVec 3) (imm : BitVec 8) (s : State) : Result :=
  doubleShiftRM .shld (.imm imm) .w32 (instrLength (.shldRm32R32Imm8 p rm r imm)) p rm r s

/-- `SHLD r/m16,r16,CL`, 0F A5 /r (R220). -/
def execShldRm16R16Cl (p : Prefixes) (rm : RM) (r : BitVec 3) (s : State) : Result :=
  doubleShiftRM .shld .cl .w16 (instrLength (.shldRm16R16Cl p rm r)) p rm r s

/-- `SHLD r/m32,r32,CL`, 0F A5 /r (R220). -/
def execShldRm32R32Cl (p : Prefixes) (rm : RM) (r : BitVec 3) (s : State) : Result :=
  doubleShiftRM .shld .cl .w32 (instrLength (.shldRm32R32Cl p rm r)) p rm r s

/-- `SHRD r/m16,r16,imm8`, 0F AC /r ib (R230). -/
def execShrdRm16R16Imm8 (p : Prefixes) (rm : RM) (r : BitVec 3) (imm : BitVec 8) (s : State) : Result :=
  doubleShiftRM .shrd (.imm imm) .w16 (instrLength (.shrdRm16R16Imm8 p rm r imm)) p rm r s

/-- `SHRD r/m32,r32,imm8`, 0F AC /r ib (R230). -/
def execShrdRm32R32Imm8 (p : Prefixes) (rm : RM) (r : BitVec 3) (imm : BitVec 8) (s : State) : Result :=
  doubleShiftRM .shrd (.imm imm) .w32 (instrLength (.shrdRm32R32Imm8 p rm r imm)) p rm r s

/-- `SHRD r/m16,r16,CL`, 0F AD /r (R230). -/
def execShrdRm16R16Cl (p : Prefixes) (rm : RM) (r : BitVec 3) (s : State) : Result :=
  doubleShiftRM .shrd .cl .w16 (instrLength (.shrdRm16R16Cl p rm r)) p rm r s

/-- `SHRD r/m32,r32,CL`, 0F AD /r (R230). -/
def execShrdRm32R32Cl (p : Prefixes) (rm : RM) (r : BitVec 3) (s : State) : Result :=
  doubleShiftRM .shrd .cl .w32 (instrLength (.shrdRm32R32Cl p rm r)) p rm r s

end Sys2Proof.Machine
end

