-- ==== Sys2Proof/Machine/FlagOps.lean ====
section
/-! DEFINITION. SAHF (`40_sahf.md` rules R130 to R132), STC, STD and STI (`48_stc_std_sti_stos_str.md` rules R250 to R258). -/

namespace Sys2Proof.Machine

open Sys2Proof

/-- The flags that SAHF makes of AH (R130): bits 7, 6, 4, 2 and 0; the others stay. -/
def flagsOfAH (ah : Byte) (f : Flags) : Flags :=
  { f with
    SF := ah.getLsbD 7
    ZF := ah.getLsbD 6
    AF := ah.getLsbD 4
    PF := ah.getLsbD 2
    CF := ah.getLsbD 0 }

/-- Whether STI raises `GP(0)`: in Protected Mode when CPL is greater than IOPL, in Virtual 8086 Mode when IOPL is below 3 (R255, R257). -/
def stiFaults (s : State) : Bool :=
  match s.mode with
  | .prot => decide (s.iopl.toNat < s.cpl.toNat)
  | .v86 => decide (s.iopl.toNat < 3)
  | .real => false

/-- `SAHF`, 9E (R130). -/
def execSahf (p : Prefixes) (s : State) : Result :=
  .next ((s.withFlags (flagsOfAH (readReg .w8 4 s) s.flags)).retire (instrLength (.sahf p)))

/-- `STC`, F9 (R250). -/
def execStc (p : Prefixes) (s : State) : Result :=
  .next ((s.withFlags { s.flags with CF := true }).retire (instrLength (.stc p)))

/-- `STD`, FD (R252). -/
def execStd (p : Prefixes) (s : State) : Result :=
  .next ((s.withFlags { s.flags with DF := true }).retire (instrLength (.std p)))

/-- `STI`, FB (R255). -/
def execSti (p : Prefixes) (s : State) : Result :=
  if stiFaults s then raise .gp0 s
  else .next ((s.withFlags { s.flags with IF := true }).retireShadowed (instrLength (.sti p)))

end Sys2Proof.Machine
end

