-- ==== Sys2Proof/Machine/SetCond.lean ====
section
/-! DEFINITION. SETcc, thirty mnemonics on sixteen opcodes (`44_setcc.md` rules R180 to R199). -/

namespace Sys2Proof.Machine

open Sys2Proof

/-- SETcc (R180): the byte 01 or 00 to the `r/m8` operand, which is not read. -/
def setByte (c : Cond) (L : Nat) (p : Prefixes) (rm : RM) (s : State) : Result :=
  writeRM .w8 L p rm (if Cond.holds s.flags c then 1 else 0) s

/-- `SETA r/m8`, 0F 97 ModRM (R189). -/
def execSeta (p : Prefixes) (rm : RM) (s : State) : Result :=
  setByte .a (instrLength (.seta p rm)) p rm s

/-- `SETAE r/m8`, 0F 93 ModRM (R185). -/
def execSetae (p : Prefixes) (rm : RM) (s : State) : Result :=
  setByte .ae (instrLength (.setae p rm)) p rm s

/-- `SETB r/m8`, 0F 92 ModRM (R184). -/
def execSetb (p : Prefixes) (rm : RM) (s : State) : Result :=
  setByte .b (instrLength (.setb p rm)) p rm s

/-- `SETBE r/m8`, 0F 96 ModRM (R188). -/
def execSetbe (p : Prefixes) (rm : RM) (s : State) : Result :=
  setByte .be (instrLength (.setbe p rm)) p rm s

/-- `SETC r/m8`, 0F 92 ModRM (R184), a second spelling of `SETB r/m8` (R112). -/
def execSetc (p : Prefixes) (rm : RM) (s : State) : Result :=
  setByte .b (instrLength (.setc p rm)) p rm s

/-- `SETE r/m8`, 0F 94 ModRM (R186). -/
def execSete (p : Prefixes) (rm : RM) (s : State) : Result :=
  setByte .e (instrLength (.sete p rm)) p rm s

/-- `SETG r/m8`, 0F 9F ModRM (R197). -/
def execSetg (p : Prefixes) (rm : RM) (s : State) : Result :=
  setByte .g (instrLength (.setg p rm)) p rm s

/-- `SETGE r/m8`, 0F 9D ModRM (R195). -/
def execSetge (p : Prefixes) (rm : RM) (s : State) : Result :=
  setByte .ge (instrLength (.setge p rm)) p rm s

/-- `SETL r/m8`, 0F 9C ModRM (R194). -/
def execSetl (p : Prefixes) (rm : RM) (s : State) : Result :=
  setByte .l (instrLength (.setl p rm)) p rm s

/-- `SETLE r/m8`, 0F 9E ModRM (R196). -/
def execSetle (p : Prefixes) (rm : RM) (s : State) : Result :=
  setByte .le (instrLength (.setle p rm)) p rm s

/-- `SETNA r/m8`, 0F 96 ModRM (R188), a second spelling of `SETBE r/m8` (R112). -/
def execSetna (p : Prefixes) (rm : RM) (s : State) : Result :=
  setByte .be (instrLength (.setna p rm)) p rm s

/-- `SETNAE r/m8`, 0F 92 ModRM (R184), a second spelling of `SETB r/m8` (R112). -/
def execSetnae (p : Prefixes) (rm : RM) (s : State) : Result :=
  setByte .b (instrLength (.setnae p rm)) p rm s

/-- `SETNB r/m8`, 0F 93 ModRM (R185), a second spelling of `SETAE r/m8` (R112). -/
def execSetnb (p : Prefixes) (rm : RM) (s : State) : Result :=
  setByte .ae (instrLength (.setnb p rm)) p rm s

/-- `SETNBE r/m8`, 0F 97 ModRM (R189), a second spelling of `SETA r/m8` (R112). -/
def execSetnbe (p : Prefixes) (rm : RM) (s : State) : Result :=
  setByte .a (instrLength (.setnbe p rm)) p rm s

/-- `SETNC r/m8`, 0F 93 ModRM (R185), a second spelling of `SETAE r/m8` (R112). -/
def execSetnc (p : Prefixes) (rm : RM) (s : State) : Result :=
  setByte .ae (instrLength (.setnc p rm)) p rm s

/-- `SETNE r/m8`, 0F 95 ModRM (R187). -/
def execSetne (p : Prefixes) (rm : RM) (s : State) : Result :=
  setByte .ne (instrLength (.setne p rm)) p rm s

/-- `SETNG r/m8`, 0F 9E ModRM (R196), a second spelling of `SETLE r/m8` (R112). -/
def execSetng (p : Prefixes) (rm : RM) (s : State) : Result :=
  setByte .le (instrLength (.setng p rm)) p rm s

/-- `SETNGE r/m8`, 0F 9C ModRM (R194), a second spelling of `SETL r/m8` (R112). -/
def execSetnge (p : Prefixes) (rm : RM) (s : State) : Result :=
  setByte .l (instrLength (.setnge p rm)) p rm s

/-- `SETNL r/m8`, 0F 9D ModRM (R195), a second spelling of `SETGE r/m8` (R112). -/
def execSetnl (p : Prefixes) (rm : RM) (s : State) : Result :=
  setByte .ge (instrLength (.setnl p rm)) p rm s

/-- `SETNLE r/m8`, 0F 9F ModRM (R197), a second spelling of `SETG r/m8` (R112). -/
def execSetnle (p : Prefixes) (rm : RM) (s : State) : Result :=
  setByte .g (instrLength (.setnle p rm)) p rm s

/-- `SETNO r/m8`, 0F 91 ModRM (R183). -/
def execSetno (p : Prefixes) (rm : RM) (s : State) : Result :=
  setByte .no (instrLength (.setno p rm)) p rm s

/-- `SETNP r/m8`, 0F 9B ModRM (R193). -/
def execSetnp (p : Prefixes) (rm : RM) (s : State) : Result :=
  setByte .np (instrLength (.setnp p rm)) p rm s

/-- `SETNS r/m8`, 0F 99 ModRM (R191). -/
def execSetns (p : Prefixes) (rm : RM) (s : State) : Result :=
  setByte .ns (instrLength (.setns p rm)) p rm s

/-- `SETNZ r/m8`, 0F 95 ModRM (R187), a second spelling of `SETNE r/m8` (R112). -/
def execSetnz (p : Prefixes) (rm : RM) (s : State) : Result :=
  setByte .ne (instrLength (.setnz p rm)) p rm s

/-- `SETO r/m8`, 0F 90 ModRM (R182). -/
def execSeto (p : Prefixes) (rm : RM) (s : State) : Result :=
  setByte .o (instrLength (.seto p rm)) p rm s

/-- `SETP r/m8`, 0F 9A ModRM (R192). -/
def execSetp (p : Prefixes) (rm : RM) (s : State) : Result :=
  setByte .p (instrLength (.setp p rm)) p rm s

/-- `SETPE r/m8`, 0F 9A ModRM (R192), a second spelling of `SETP r/m8` (R112). -/
def execSetpe (p : Prefixes) (rm : RM) (s : State) : Result :=
  setByte .p (instrLength (.setpe p rm)) p rm s

/-- `SETPO r/m8`, 0F 9B ModRM (R193), a second spelling of `SETNP r/m8` (R112). -/
def execSetpo (p : Prefixes) (rm : RM) (s : State) : Result :=
  setByte .np (instrLength (.setpo p rm)) p rm s

/-- `SETS r/m8`, 0F 98 ModRM (R190). -/
def execSets (p : Prefixes) (rm : RM) (s : State) : Result :=
  setByte .s (instrLength (.sets p rm)) p rm s

/-- `SETZ r/m8`, 0F 94 ModRM (R186), a second spelling of `SETE r/m8` (R112). -/
def execSetz (p : Prefixes) (rm : RM) (s : State) : Result :=
  setByte .e (instrLength (.setz p rm)) p rm s

end Sys2Proof.Machine
end

