-- ==== Sys2Proof/Machine/Shift.lean ====
section
/-! DEFINITION. SAL, SHL, SAR, SHR, every form (`41_shift_sal_sar_shl_shr.md` rules R140 to R153). -/

namespace Sys2Proof.Machine

open Sys2Proof

/-- A shift of the `r/m` operand (R142): the access is a read-modify-write whatever the count is; the count is read before anything changes. -/
def shiftRM (op : ShiftOp) (c : CountSource) (w : Width) (L : Nat) (p : Prefixes) (rm : RM) (s : State) : Result :=
  updateRM w L p rm (fun a s1 => shiftOperand op (shiftCount c s1) a s1) s

/-- `SAL r/m8,1`, D0 /4 (R150). -/
def execSalRm8One (p : Prefixes) (rm : RM) (s : State) : Result :=
  shiftRM .sal .one .w8 (instrLength (.salRm8One p rm)) p rm s

/-- `SAL r/m8,CL`, D2 /4 (R150). -/
def execSalRm8Cl (p : Prefixes) (rm : RM) (s : State) : Result :=
  shiftRM .sal .cl .w8 (instrLength (.salRm8Cl p rm)) p rm s

/-- `SAL r/m8,imm8`, C0 /4 ib (R150). -/
def execSalRm8Imm8 (p : Prefixes) (rm : RM) (imm : BitVec 8) (s : State) : Result :=
  shiftRM .sal (.imm imm) .w8 (instrLength (.salRm8Imm8 p rm imm)) p rm s

/-- `SAL r/m16,1`, D1 /4 (R150). -/
def execSalRm16One (p : Prefixes) (rm : RM) (s : State) : Result :=
  shiftRM .sal .one .w16 (instrLength (.salRm16One p rm)) p rm s

/-- `SAL r/m16,CL`, D3 /4 (R150). -/
def execSalRm16Cl (p : Prefixes) (rm : RM) (s : State) : Result :=
  shiftRM .sal .cl .w16 (instrLength (.salRm16Cl p rm)) p rm s

/-- `SAL r/m16,imm8`, C1 /4 ib (R150). -/
def execSalRm16Imm8 (p : Prefixes) (rm : RM) (imm : BitVec 8) (s : State) : Result :=
  shiftRM .sal (.imm imm) .w16 (instrLength (.salRm16Imm8 p rm imm)) p rm s

/-- `SAL r/m32,1`, D1 /4 (R150). -/
def execSalRm32One (p : Prefixes) (rm : RM) (s : State) : Result :=
  shiftRM .sal .one .w32 (instrLength (.salRm32One p rm)) p rm s

/-- `SAL r/m32,CL`, D3 /4 (R150). -/
def execSalRm32Cl (p : Prefixes) (rm : RM) (s : State) : Result :=
  shiftRM .sal .cl .w32 (instrLength (.salRm32Cl p rm)) p rm s

/-- `SAL r/m32,imm8`, C1 /4 ib (R150). -/
def execSalRm32Imm8 (p : Prefixes) (rm : RM) (imm : BitVec 8) (s : State) : Result :=
  shiftRM .sal (.imm imm) .w32 (instrLength (.salRm32Imm8 p rm imm)) p rm s

/-- `SAR r/m8,1`, D0 /7 (R151). -/
def execSarRm8One (p : Prefixes) (rm : RM) (s : State) : Result :=
  shiftRM .sar .one .w8 (instrLength (.sarRm8One p rm)) p rm s

/-- `SAR r/m8,CL`, D2 /7 (R151). -/
def execSarRm8Cl (p : Prefixes) (rm : RM) (s : State) : Result :=
  shiftRM .sar .cl .w8 (instrLength (.sarRm8Cl p rm)) p rm s

/-- `SAR r/m8,imm8`, C0 /7 ib (R151). -/
def execSarRm8Imm8 (p : Prefixes) (rm : RM) (imm : BitVec 8) (s : State) : Result :=
  shiftRM .sar (.imm imm) .w8 (instrLength (.sarRm8Imm8 p rm imm)) p rm s

/-- `SAR r/m16,1`, D1 /7 (R151). -/
def execSarRm16One (p : Prefixes) (rm : RM) (s : State) : Result :=
  shiftRM .sar .one .w16 (instrLength (.sarRm16One p rm)) p rm s

/-- `SAR r/m16,CL`, D3 /7 (R151). -/
def execSarRm16Cl (p : Prefixes) (rm : RM) (s : State) : Result :=
  shiftRM .sar .cl .w16 (instrLength (.sarRm16Cl p rm)) p rm s

/-- `SAR r/m16,imm8`, C1 /7 ib (R151). -/
def execSarRm16Imm8 (p : Prefixes) (rm : RM) (imm : BitVec 8) (s : State) : Result :=
  shiftRM .sar (.imm imm) .w16 (instrLength (.sarRm16Imm8 p rm imm)) p rm s

/-- `SAR r/m32,1`, D1 /7 (R151). -/
def execSarRm32One (p : Prefixes) (rm : RM) (s : State) : Result :=
  shiftRM .sar .one .w32 (instrLength (.sarRm32One p rm)) p rm s

/-- `SAR r/m32,CL`, D3 /7 (R151). -/
def execSarRm32Cl (p : Prefixes) (rm : RM) (s : State) : Result :=
  shiftRM .sar .cl .w32 (instrLength (.sarRm32Cl p rm)) p rm s

/-- `SAR r/m32,imm8`, C1 /7 ib (R151). -/
def execSarRm32Imm8 (p : Prefixes) (rm : RM) (imm : BitVec 8) (s : State) : Result :=
  shiftRM .sar (.imm imm) .w32 (instrLength (.sarRm32Imm8 p rm imm)) p rm s

/-- `SHL r/m8,1`, D0 /4 (R150), a second spelling of `SAL r/m8,1` (R112). -/
def execShlRm8One (p : Prefixes) (rm : RM) (s : State) : Result :=
  shiftRM .sal .one .w8 (instrLength (.shlRm8One p rm)) p rm s

/-- `SHL r/m8,CL`, D2 /4 (R150), a second spelling of `SAL r/m8,CL` (R112). -/
def execShlRm8Cl (p : Prefixes) (rm : RM) (s : State) : Result :=
  shiftRM .sal .cl .w8 (instrLength (.shlRm8Cl p rm)) p rm s

/-- `SHL r/m8,imm8`, C0 /4 ib (R150), a second spelling of `SAL r/m8,imm8` (R112). -/
def execShlRm8Imm8 (p : Prefixes) (rm : RM) (imm : BitVec 8) (s : State) : Result :=
  shiftRM .sal (.imm imm) .w8 (instrLength (.shlRm8Imm8 p rm imm)) p rm s

/-- `SHL r/m16,1`, D1 /4 (R150), a second spelling of `SAL r/m16,1` (R112). -/
def execShlRm16One (p : Prefixes) (rm : RM) (s : State) : Result :=
  shiftRM .sal .one .w16 (instrLength (.shlRm16One p rm)) p rm s

/-- `SHL r/m16,CL`, D3 /4 (R150), a second spelling of `SAL r/m16,CL` (R112). -/
def execShlRm16Cl (p : Prefixes) (rm : RM) (s : State) : Result :=
  shiftRM .sal .cl .w16 (instrLength (.shlRm16Cl p rm)) p rm s

/-- `SHL r/m16,imm8`, C1 /4 ib (R150), a second spelling of `SAL r/m16,imm8` (R112). -/
def execShlRm16Imm8 (p : Prefixes) (rm : RM) (imm : BitVec 8) (s : State) : Result :=
  shiftRM .sal (.imm imm) .w16 (instrLength (.shlRm16Imm8 p rm imm)) p rm s

/-- `SHL r/m32,1`, D1 /4 (R150), a second spelling of `SAL r/m32,1` (R112). -/
def execShlRm32One (p : Prefixes) (rm : RM) (s : State) : Result :=
  shiftRM .sal .one .w32 (instrLength (.shlRm32One p rm)) p rm s

/-- `SHL r/m32,CL`, D3 /4 (R150), a second spelling of `SAL r/m32,CL` (R112). -/
def execShlRm32Cl (p : Prefixes) (rm : RM) (s : State) : Result :=
  shiftRM .sal .cl .w32 (instrLength (.shlRm32Cl p rm)) p rm s

/-- `SHL r/m32,imm8`, C1 /4 ib (R150), a second spelling of `SAL r/m32,imm8` (R112). -/
def execShlRm32Imm8 (p : Prefixes) (rm : RM) (imm : BitVec 8) (s : State) : Result :=
  shiftRM .sal (.imm imm) .w32 (instrLength (.shlRm32Imm8 p rm imm)) p rm s

/-- `SHR r/m8,1`, D0 /5 (R152). -/
def execShrRm8One (p : Prefixes) (rm : RM) (s : State) : Result :=
  shiftRM .shr .one .w8 (instrLength (.shrRm8One p rm)) p rm s

/-- `SHR r/m8,CL`, D2 /5 (R152). -/
def execShrRm8Cl (p : Prefixes) (rm : RM) (s : State) : Result :=
  shiftRM .shr .cl .w8 (instrLength (.shrRm8Cl p rm)) p rm s

/-- `SHR r/m8,imm8`, C0 /5 ib (R152). -/
def execShrRm8Imm8 (p : Prefixes) (rm : RM) (imm : BitVec 8) (s : State) : Result :=
  shiftRM .shr (.imm imm) .w8 (instrLength (.shrRm8Imm8 p rm imm)) p rm s

/-- `SHR r/m16,1`, D1 /5 (R152). -/
def execShrRm16One (p : Prefixes) (rm : RM) (s : State) : Result :=
  shiftRM .shr .one .w16 (instrLength (.shrRm16One p rm)) p rm s

/-- `SHR r/m16,CL`, D3 /5 (R152). -/
def execShrRm16Cl (p : Prefixes) (rm : RM) (s : State) : Result :=
  shiftRM .shr .cl .w16 (instrLength (.shrRm16Cl p rm)) p rm s

/-- `SHR r/m16,imm8`, C1 /5 ib (R152). -/
def execShrRm16Imm8 (p : Prefixes) (rm : RM) (imm : BitVec 8) (s : State) : Result :=
  shiftRM .shr (.imm imm) .w16 (instrLength (.shrRm16Imm8 p rm imm)) p rm s

/-- `SHR r/m32,1`, D1 /5 (R152). -/
def execShrRm32One (p : Prefixes) (rm : RM) (s : State) : Result :=
  shiftRM .shr .one .w32 (instrLength (.shrRm32One p rm)) p rm s

/-- `SHR r/m32,CL`, D3 /5 (R152). -/
def execShrRm32Cl (p : Prefixes) (rm : RM) (s : State) : Result :=
  shiftRM .shr .cl .w32 (instrLength (.shrRm32Cl p rm)) p rm s

/-- `SHR r/m32,imm8`, C1 /5 ib (R152). -/
def execShrRm32Imm8 (p : Prefixes) (rm : RM) (imm : BitVec 8) (s : State) : Result :=
  shiftRM .shr (.imm imm) .w32 (instrLength (.shrRm32Imm8 p rm imm)) p rm s

end Sys2Proof.Machine
end

