-- ==== Sys2Proof/Machine/StringOps.lean ====
section
/-! DEFINITION. SCAS and STOS with their second spellings (`43_scas.md` rules R170 to R173, `48_stc_std_sti_stos_str.md` rules R260 to R263). -/

namespace Sys2Proof.Machine

open Sys2Proof

/-- SCAS (R170): the accumulator is compared with memory at ES:(E)DI, only the flags are set, and the index moves. -/
def scanString (w : Width) (L : Nat) (p : Prefixes) (s : State) : Result :=
  match access s (stringRef (p.addressSize s.defaultSize) s) w.bytes .read with
  | .error e => raise e s
  | .ok a =>
    .next ((stepIndex (p.addressSize s.defaultSize) w.bytes
      (s.withFlags (subFlags (readReg w 0 s) (ofBytes w.bits (s.mem.load a)) false s.flags))).retire L)

/-- STOS (R260): the accumulator is stored at ES:(E)DI, and the index moves. -/
def storeString (w : Width) (L : Nat) (p : Prefixes) (s : State) : Result :=
  match access s (stringRef (p.addressSize s.defaultSize) s) w.bytes .write with
  | .error e => raise e s
  | .ok a =>
    match storeBytes a (toBytes w.bytes (readReg w 0 s)) s with
    | .error r => .refused r
    | .ok s1 => .next ((stepIndex (p.addressSize s.defaultSize) w.bytes s1).retire L)

/-- `SCAS m8`, AE (R170). -/
def execScasM8 (p : Prefixes) (s : State) : Result :=
  scanString .w8 (instrLength (.scasM8 p)) p s

/-- `SCAS m16`, AF (R170). -/
def execScasM16 (p : Prefixes) (s : State) : Result :=
  scanString .w16 (instrLength (.scasM16 p)) p s

/-- `SCAS m32`, AF (R170). -/
def execScasM32 (p : Prefixes) (s : State) : Result :=
  scanString .w32 (instrLength (.scasM32 p)) p s

/-- `SCASB`, AE (R170), a second spelling of `SCAS m8` (R112). -/
def execScasb (p : Prefixes) (s : State) : Result :=
  scanString .w8 (instrLength (.scasb p)) p s

/-- `SCASW`, AF (R170), a second spelling of `SCAS m16` (R112). -/
def execScasw (p : Prefixes) (s : State) : Result :=
  scanString .w16 (instrLength (.scasw p)) p s

/-- `SCASD`, AF (R170), a second spelling of `SCAS m32` (R112). -/
def execScasd (p : Prefixes) (s : State) : Result :=
  scanString .w32 (instrLength (.scasd p)) p s

/-- `STOS m8`, AA (R260). -/
def execStosM8 (p : Prefixes) (s : State) : Result :=
  storeString .w8 (instrLength (.stosM8 p)) p s

/-- `STOS m16`, AB (R260). -/
def execStosM16 (p : Prefixes) (s : State) : Result :=
  storeString .w16 (instrLength (.stosM16 p)) p s

/-- `STOS m32`, AB (R260). -/
def execStosM32 (p : Prefixes) (s : State) : Result :=
  storeString .w32 (instrLength (.stosM32 p)) p s

/-- `STOSB`, AA (R260), a second spelling of `STOS m8` (R112). -/
def execStosb (p : Prefixes) (s : State) : Result :=
  storeString .w8 (instrLength (.stosb p)) p s

/-- `STOSW`, AB (R260), a second spelling of `STOS m16` (R112). -/
def execStosw (p : Prefixes) (s : State) : Result :=
  storeString .w16 (instrLength (.stosw p)) p s

/-- `STOSD`, AB (R260), a second spelling of `STOS m32` (R112). -/
def execStosd (p : Prefixes) (s : State) : Result :=
  storeString .w32 (instrLength (.stosd p)) p s

end Sys2Proof.Machine
end

