-- ==== Sys2Proof/Machine/Subtract.lean ====
section
/-! DEFINITION. SUB and SBB, every form (`49_sub.md` rules R270 to R273, `42_sbb.md` rules R160 to R163). -/

namespace Sys2Proof.Machine

open Sys2Proof

/-- Which of the two subtractions. -/
inductive SubOp where
  | sub
  | sbb
deriving DecidableEq, Repr

/-- The borrow-in of `Sub_n`: 0 for SUB, CF before the instruction for SBB (R160, R270). -/
def borrowIn (op : SubOp) (s : State) : Bool :=
  match op with
  | .sub => false
  | .sbb => s.flags.CF

/-- The state with the six flags of `DEST - SRC - borrow` (R34). -/
def withSubFlags {n : Nat} (a b : BitVec n) (c : Bool) (s : State) : State :=
  s.withFlags (subFlags a b c s.flags)

/-- DEST is the accumulator, register number 0; SRC is a value (1C, 1D, 2C, 2D). -/
def subFromAcc (op : SubOp) (w : Width) (L : Nat) (b : BitVec w.bits) (s : State) : Result :=
  .next ((writeReg w 0 (subResult (readReg w 0 s) b (borrowIn op s))
    (withSubFlags (readReg w 0 s) b (borrowIn op s) s)).retire L)

/-- DEST is the `r/m` operand; SRC is a value read before (80, 81, 83, 18, 19, 28, 29). -/
def subFromRM (op : SubOp) (w : Width) (L : Nat) (p : Prefixes) (rm : RM) (b : BitVec w.bits)
    (s : State) : Result :=
  updateRM w L p rm
    (fun a s1 => (some (subResult a b (borrowIn op s1)), withSubFlags a b (borrowIn op s1) s1)) s

/-- DEST is register `r`; SRC is the `r/m` operand (1A, 1B, 2A, 2B; R161, R271). -/
def subFromReg (op : SubOp) (w : Width) (L : Nat) (p : Prefixes) (rm : RM) (r : BitVec 3)
    (s : State) : Result :=
  readRM w L p rm
    (fun b s1 => writeReg w r (subResult (readReg w r s1) b (borrowIn op s1))
      (withSubFlags (readReg w r s1) b (borrowIn op s1) s1)) s

/-- `SBB AL,imm8`, 1C ib (R160). -/
def execSbbAlImm8 (p : Prefixes) (imm : BitVec 8) (s : State) : Result :=
  subFromAcc .sbb .w8 (instrLength (.sbbAlImm8 p imm)) imm s

/-- `SBB AX,imm16`, 1D iw (R160). -/
def execSbbAxImm16 (p : Prefixes) (imm : BitVec 16) (s : State) : Result :=
  subFromAcc .sbb .w16 (instrLength (.sbbAxImm16 p imm)) imm s

/-- `SBB EAX,imm32`, 1D id (R160). -/
def execSbbEaxImm32 (p : Prefixes) (imm : BitVec 32) (s : State) : Result :=
  subFromAcc .sbb .w32 (instrLength (.sbbEaxImm32 p imm)) imm s

/-- `SBB r/m8,imm8`, 80 /3 ib (R160). -/
def execSbbRm8Imm8 (p : Prefixes) (rm : RM) (imm : BitVec 8) (s : State) : Result :=
  subFromRM .sbb .w8 (instrLength (.sbbRm8Imm8 p rm imm)) p rm imm s

/-- `SBB r/m16,imm16`, 81 /3 iw (R160). -/
def execSbbRm16Imm16 (p : Prefixes) (rm : RM) (imm : BitVec 16) (s : State) : Result :=
  subFromRM .sbb .w16 (instrLength (.sbbRm16Imm16 p rm imm)) p rm imm s

/-- `SBB r/m32,imm32`, 81 /3 id (R160). -/
def execSbbRm32Imm32 (p : Prefixes) (rm : RM) (imm : BitVec 32) (s : State) : Result :=
  subFromRM .sbb .w32 (instrLength (.sbbRm32Imm32 p rm imm)) p rm imm s

/-- `SBB r/m16,imm8`, 83 /3 ib (R160). -/
def execSbbRm16Imm8 (p : Prefixes) (rm : RM) (imm : BitVec 8) (s : State) : Result :=
  subFromRM .sbb .w16 (instrLength (.sbbRm16Imm8 p rm imm)) p rm (imm.signExtend 16) s

/-- `SBB r/m32,imm8`, 83 /3 ib (R160). -/
def execSbbRm32Imm8 (p : Prefixes) (rm : RM) (imm : BitVec 8) (s : State) : Result :=
  subFromRM .sbb .w32 (instrLength (.sbbRm32Imm8 p rm imm)) p rm (imm.signExtend 32) s

/-- `SBB r/m8,r8`, 18 /r (R160). -/
def execSbbRm8R8 (p : Prefixes) (rm : RM) (r : BitVec 3) (s : State) : Result :=
  subFromRM .sbb .w8 (instrLength (.sbbRm8R8 p rm r)) p rm (readReg .w8 r s) s

/-- `SBB r/m16,r16`, 19 /r (R160). -/
def execSbbRm16R16 (p : Prefixes) (rm : RM) (r : BitVec 3) (s : State) : Result :=
  subFromRM .sbb .w16 (instrLength (.sbbRm16R16 p rm r)) p rm (readReg .w16 r s) s

/-- `SBB r/m32,r32`, 19 /r (R160). -/
def execSbbRm32R32 (p : Prefixes) (rm : RM) (r : BitVec 3) (s : State) : Result :=
  subFromRM .sbb .w32 (instrLength (.sbbRm32R32 p rm r)) p rm (readReg .w32 r s) s

/-- `SBB r8,r/m8`, 1A /r (R160). -/
def execSbbR8Rm8 (p : Prefixes) (rm : RM) (r : BitVec 3) (s : State) : Result :=
  subFromReg .sbb .w8 (instrLength (.sbbR8Rm8 p rm r)) p rm r s

/-- `SBB r16,r/m16`, 1B /r (R160). -/
def execSbbR16Rm16 (p : Prefixes) (rm : RM) (r : BitVec 3) (s : State) : Result :=
  subFromReg .sbb .w16 (instrLength (.sbbR16Rm16 p rm r)) p rm r s

/-- `SBB r32,r/m32`, 1B /r (R160). -/
def execSbbR32Rm32 (p : Prefixes) (rm : RM) (r : BitVec 3) (s : State) : Result :=
  subFromReg .sbb .w32 (instrLength (.sbbR32Rm32 p rm r)) p rm r s

/-- `SUB AL,imm8`, 2C ib (R270). -/
def execSubAlImm8 (p : Prefixes) (imm : BitVec 8) (s : State) : Result :=
  subFromAcc .sub .w8 (instrLength (.subAlImm8 p imm)) imm s

/-- `SUB AX,imm16`, 2D iw (R270). -/
def execSubAxImm16 (p : Prefixes) (imm : BitVec 16) (s : State) : Result :=
  subFromAcc .sub .w16 (instrLength (.subAxImm16 p imm)) imm s

/-- `SUB EAX,imm32`, 2D id (R270). -/
def execSubEaxImm32 (p : Prefixes) (imm : BitVec 32) (s : State) : Result :=
  subFromAcc .sub .w32 (instrLength (.subEaxImm32 p imm)) imm s

/-- `SUB r/m8,imm8`, 80 /5 ib (R270). -/
def execSubRm8Imm8 (p : Prefixes) (rm : RM) (imm : BitVec 8) (s : State) : Result :=
  subFromRM .sub .w8 (instrLength (.subRm8Imm8 p rm imm)) p rm imm s

/-- `SUB r/m16,imm16`, 81 /5 iw (R270). -/
def execSubRm16Imm16 (p : Prefixes) (rm : RM) (imm : BitVec 16) (s : State) : Result :=
  subFromRM .sub .w16 (instrLength (.subRm16Imm16 p rm imm)) p rm imm s

/-- `SUB r/m32,imm32`, 81 /5 id (R270). -/
def execSubRm32Imm32 (p : Prefixes) (rm : RM) (imm : BitVec 32) (s : State) : Result :=
  subFromRM .sub .w32 (instrLength (.subRm32Imm32 p rm imm)) p rm imm s

/-- `SUB r/m16,imm8`, 83 /5 ib (R270). -/
def execSubRm16Imm8 (p : Prefixes) (rm : RM) (imm : BitVec 8) (s : State) : Result :=
  subFromRM .sub .w16 (instrLength (.subRm16Imm8 p rm imm)) p rm (imm.signExtend 16) s

/-- `SUB r/m32,imm8`, 83 /5 ib (R270). -/
def execSubRm32Imm8 (p : Prefixes) (rm : RM) (imm : BitVec 8) (s : State) : Result :=
  subFromRM .sub .w32 (instrLength (.subRm32Imm8 p rm imm)) p rm (imm.signExtend 32) s

/-- `SUB r/m8,r8`, 28 /r (R270). -/
def execSubRm8R8 (p : Prefixes) (rm : RM) (r : BitVec 3) (s : State) : Result :=
  subFromRM .sub .w8 (instrLength (.subRm8R8 p rm r)) p rm (readReg .w8 r s) s

/-- `SUB r/m16,r16`, 29 /r (R270). -/
def execSubRm16R16 (p : Prefixes) (rm : RM) (r : BitVec 3) (s : State) : Result :=
  subFromRM .sub .w16 (instrLength (.subRm16R16 p rm r)) p rm (readReg .w16 r s) s

/-- `SUB r/m32,r32`, 29 /r (R270). -/
def execSubRm32R32 (p : Prefixes) (rm : RM) (r : BitVec 3) (s : State) : Result :=
  subFromRM .sub .w32 (instrLength (.subRm32R32 p rm r)) p rm (readReg .w32 r s) s

/-- `SUB r8,r/m8`, 2A /r (R270). -/
def execSubR8Rm8 (p : Prefixes) (rm : RM) (r : BitVec 3) (s : State) : Result :=
  subFromReg .sub .w8 (instrLength (.subR8Rm8 p rm r)) p rm r s

/-- `SUB r16,r/m16`, 2B /r (R270). -/
def execSubR16Rm16 (p : Prefixes) (rm : RM) (r : BitVec 3) (s : State) : Result :=
  subFromReg .sub .w16 (instrLength (.subR16Rm16 p rm r)) p rm r s

/-- `SUB r32,r/m32`, 2B /r (R270). -/
def execSubR32Rm32 (p : Prefixes) (rm : RM) (r : BitVec 3) (s : State) : Result :=
  subFromReg .sub .w32 (instrLength (.subR32Rm32 p rm r)) p rm r s

end Sys2Proof.Machine
end

