-- ==== Sys2Proof/Machine/System.lean ====
section
/-! DEFINITION. SGDT, SIDT (`45_sgdt_sidt.md` rules R210 to R214), SLDT, SMSW (`47_sldt_smsw.md` rules R240 to R247) and STR (`48_stc_std_sti_stos_str.md` rules R265 to R267). -/

namespace Sys2Proof.Machine

open Sys2Proof

/-- `Image(LIMIT, BASE, OperandSize)` (R212): LIMIT, the three low bytes of BASE, and byte 5, which is BASE[31:24] with a 32-bit operand size and the drawn byte with a 16-bit one. -/
def tableImage (t : DescTable) (osz : Size) (drawn : Byte) : List Byte :=
  toBytes 2 t.limit ++ toBytes 3 t.base ++
    match osz with
    | .s32 => [t.base.extractLsb' 24 8]
    | .s16 => [drawn]

/-- The state after the image is made: one draw with a 16-bit operand size (R212). -/
def afterImage (osz : Size) (s : State) : State :=
  match osz with
  | .s32 => s
  | .s16 => s.drawn

/-- SGDT and SIDT (R210, R211): `UD` for a register operand before anything else (R213), else six bytes are written. -/
def storeTable (t : DescTable) (L : Nat) (p : Prefixes) (rm : RM) (s : State) : Result :=
  match rm with
  | .reg _ => raise .ud s
  | .mem m =>
    match access s (memRef p m s) 6 .write with
    | .error e => raise e s
    | .ok a =>
      commit L (storeBytes a (tableImage t (p.operandSize s.defaultSize) (s.nextBits 8))
        (afterImage (p.operandSize s.defaultSize) s))

/-- The write of a 16-bit system value to a register: bits 15:0 receive it, bits 31:16 are drawn when `OperandSize` = 32 (R243). -/
def writeSystemReg (osz : Size) (i : BitVec 3) (v : Half) (s : State) : State :=
  match osz with
  | .s16 => writeReg .w16 i v s
  | .s32 => (s.setX i (s.nextBits 16 ++ v)).drawn

/-- The store of a 16-bit system value to a register or to two bytes of memory, whatever the operand size is (R240, R245, R265). -/
def storeSystem (v : Half) (L : Nat) (p : Prefixes) (rm : RM) (s : State) : Result :=
  match rm with
  | .reg i => .next ((writeSystemReg (p.operandSize s.defaultSize) i v s).retire L)
  | .mem m =>
    match access s (memRef p m s) 2 .write with
    | .error e => raise e s
    | .ok a => commit L (storeBytes a (toBytes 2 v) s)

/-- The same where the instruction is recognised in Protected Mode only: `UD` elsewhere, before the operand is looked at (R241, R266). -/
def storeSystemProtected (v : Half) (L : Nat) (p : Prefixes) (rm : RM) (s : State) : Result :=
  match s.mode with
  | .prot => storeSystem v L p rm s
  | .real => raise .ud s
  | .v86 => raise .ud s

/-- `SGDT m`, 0F 01 /0 (R210). -/
def execSgdt (p : Prefixes) (rm : RM) (s : State) : Result :=
  storeTable s.gdtr (instrLength (.sgdt p rm)) p rm s

/-- `SIDT m`, 0F 01 /1 (R211). -/
def execSidt (p : Prefixes) (rm : RM) (s : State) : Result :=
  storeTable s.idtr (instrLength (.sidt p rm)) p rm s

/-- `SLDT r/m16`, 0F 00 /0 (R240). -/
def execSldt (p : Prefixes) (rm : RM) (s : State) : Result :=
  storeSystemProtected s.ldtr (instrLength (.sldt p rm)) p rm s

/-- `SMSW r/m16`, 0F 01 /4 (R245). -/
def execSmsw (p : Prefixes) (rm : RM) (s : State) : Result :=
  storeSystem (s.cr0.extractLsb' 0 16) (instrLength (.smsw p rm)) p rm s

/-- `STR r/m16`, 0F 00 /1 (R265). -/
def execStr (p : Prefixes) (rm : RM) (s : State) : Result :=
  storeSystemProtected s.tr (instrLength (.str p rm)) p rm s

end Sys2Proof.Machine
end

