-- ==== Sys2Proof/Machine/Dispatch.lean ====
section
/-! DEFINITION. The dispatch: one arm for each constructor of `Instr`, in the order of `spec/opcode_table.json`, each one direct call of its meaning. -/

namespace Sys2Proof.Machine

open Sys2Proof

/-- The meaning of an instruction. -/
def exec (i : Instr) (s : State) : Host.Outcome State Fault Refusal :=
  match i with
  | .sahf p => Sys2Proof.Machine.execSahf p s
  | .salRm8One p rm => Sys2Proof.Machine.execSalRm8One p rm s
  | .salRm8Cl p rm => Sys2Proof.Machine.execSalRm8Cl p rm s
  | .salRm8Imm8 p rm imm => Sys2Proof.Machine.execSalRm8Imm8 p rm imm s
  | .salRm16One p rm => Sys2Proof.Machine.execSalRm16One p rm s
  | .salRm16Cl p rm => Sys2Proof.Machine.execSalRm16Cl p rm s
  | .salRm16Imm8 p rm imm => Sys2Proof.Machine.execSalRm16Imm8 p rm imm s
  | .salRm32One p rm => Sys2Proof.Machine.execSalRm32One p rm s
  | .salRm32Cl p rm => Sys2Proof.Machine.execSalRm32Cl p rm s
  | .salRm32Imm8 p rm imm => Sys2Proof.Machine.execSalRm32Imm8 p rm imm s
  | .sarRm8One p rm => Sys2Proof.Machine.execSarRm8One p rm s
  | .sarRm8Cl p rm => Sys2Proof.Machine.execSarRm8Cl p rm s
  | .sarRm8Imm8 p rm imm => Sys2Proof.Machine.execSarRm8Imm8 p rm imm s
  | .sarRm16One p rm => Sys2Proof.Machine.execSarRm16One p rm s
  | .sarRm16Cl p rm => Sys2Proof.Machine.execSarRm16Cl p rm s
  | .sarRm16Imm8 p rm imm => Sys2Proof.Machine.execSarRm16Imm8 p rm imm s
  | .sarRm32One p rm => Sys2Proof.Machine.execSarRm32One p rm s
  | .sarRm32Cl p rm => Sys2Proof.Machine.execSarRm32Cl p rm s
  | .sarRm32Imm8 p rm imm => Sys2Proof.Machine.execSarRm32Imm8 p rm imm s
  | .shlRm8One p rm => Sys2Proof.Machine.execShlRm8One p rm s
  | .shlRm8Cl p rm => Sys2Proof.Machine.execShlRm8Cl p rm s
  | .shlRm8Imm8 p rm imm => Sys2Proof.Machine.execShlRm8Imm8 p rm imm s
  | .shlRm16One p rm => Sys2Proof.Machine.execShlRm16One p rm s
  | .shlRm16Cl p rm => Sys2Proof.Machine.execShlRm16Cl p rm s
  | .shlRm16Imm8 p rm imm => Sys2Proof.Machine.execShlRm16Imm8 p rm imm s
  | .shlRm32One p rm => Sys2Proof.Machine.execShlRm32One p rm s
  | .shlRm32Cl p rm => Sys2Proof.Machine.execShlRm32Cl p rm s
  | .shlRm32Imm8 p rm imm => Sys2Proof.Machine.execShlRm32Imm8 p rm imm s
  | .shrRm8One p rm => Sys2Proof.Machine.execShrRm8One p rm s
  | .shrRm8Cl p rm => Sys2Proof.Machine.execShrRm8Cl p rm s
  | .shrRm8Imm8 p rm imm => Sys2Proof.Machine.execShrRm8Imm8 p rm imm s
  | .shrRm16One p rm => Sys2Proof.Machine.execShrRm16One p rm s
  | .shrRm16Cl p rm => Sys2Proof.Machine.execShrRm16Cl p rm s
  | .shrRm16Imm8 p rm imm => Sys2Proof.Machine.execShrRm16Imm8 p rm imm s
  | .shrRm32One p rm => Sys2Proof.Machine.execShrRm32One p rm s
  | .shrRm32Cl p rm => Sys2Proof.Machine.execShrRm32Cl p rm s
  | .shrRm32Imm8 p rm imm => Sys2Proof.Machine.execShrRm32Imm8 p rm imm s
  | .sbbAlImm8 p imm => Sys2Proof.Machine.execSbbAlImm8 p imm s
  | .sbbAxImm16 p imm => Sys2Proof.Machine.execSbbAxImm16 p imm s
  | .sbbEaxImm32 p imm => Sys2Proof.Machine.execSbbEaxImm32 p imm s
  | .sbbRm8Imm8 p rm imm => Sys2Proof.Machine.execSbbRm8Imm8 p rm imm s
  | .sbbRm16Imm16 p rm imm => Sys2Proof.Machine.execSbbRm16Imm16 p rm imm s
  | .sbbRm32Imm32 p rm imm => Sys2Proof.Machine.execSbbRm32Imm32 p rm imm s
  | .sbbRm16Imm8 p rm imm => Sys2Proof.Machine.execSbbRm16Imm8 p rm imm s
  | .sbbRm32Imm8 p rm imm => Sys2Proof.Machine.execSbbRm32Imm8 p rm imm s
  | .sbbRm8R8 p rm r => Sys2Proof.Machine.execSbbRm8R8 p rm r s
  | .sbbRm16R16 p rm r => Sys2Proof.Machine.execSbbRm16R16 p rm r s
  | .sbbRm32R32 p rm r => Sys2Proof.Machine.execSbbRm32R32 p rm r s
  | .sbbR8Rm8 p rm r => Sys2Proof.Machine.execSbbR8Rm8 p rm r s
  | .sbbR16Rm16 p rm r => Sys2Proof.Machine.execSbbR16Rm16 p rm r s
  | .sbbR32Rm32 p rm r => Sys2Proof.Machine.execSbbR32Rm32 p rm r s
  | .scasM8 p => Sys2Proof.Machine.execScasM8 p s
  | .scasM16 p => Sys2Proof.Machine.execScasM16 p s
  | .scasM32 p => Sys2Proof.Machine.execScasM32 p s
  | .scasb p => Sys2Proof.Machine.execScasb p s
  | .scasw p => Sys2Proof.Machine.execScasw p s
  | .scasd p => Sys2Proof.Machine.execScasd p s
  | .seta p rm => Sys2Proof.Machine.execSeta p rm s
  | .setae p rm => Sys2Proof.Machine.execSetae p rm s
  | .setb p rm => Sys2Proof.Machine.execSetb p rm s
  | .setbe p rm => Sys2Proof.Machine.execSetbe p rm s
  | .setc p rm => Sys2Proof.Machine.execSetc p rm s
  | .sete p rm => Sys2Proof.Machine.execSete p rm s
  | .setg p rm => Sys2Proof.Machine.execSetg p rm s
  | .setge p rm => Sys2Proof.Machine.execSetge p rm s
  | .setl p rm => Sys2Proof.Machine.execSetl p rm s
  | .setle p rm => Sys2Proof.Machine.execSetle p rm s
  | .setna p rm => Sys2Proof.Machine.execSetna p rm s
  | .setnae p rm => Sys2Proof.Machine.execSetnae p rm s
  | .setnb p rm => Sys2Proof.Machine.execSetnb p rm s
  | .setnbe p rm => Sys2Proof.Machine.execSetnbe p rm s
  | .setnc p rm => Sys2Proof.Machine.execSetnc p rm s
  | .setne p rm => Sys2Proof.Machine.execSetne p rm s
  | .setng p rm => Sys2Proof.Machine.execSetng p rm s
  | .setnge p rm => Sys2Proof.Machine.execSetnge p rm s
  | .setnl p rm => Sys2Proof.Machine.execSetnl p rm s
  | .setnle p rm => Sys2Proof.Machine.execSetnle p rm s
  | .setno p rm => Sys2Proof.Machine.execSetno p rm s
  | .setnp p rm => Sys2Proof.Machine.execSetnp p rm s
  | .setns p rm => Sys2Proof.Machine.execSetns p rm s
  | .setnz p rm => Sys2Proof.Machine.execSetnz p rm s
  | .seto p rm => Sys2Proof.Machine.execSeto p rm s
  | .setp p rm => Sys2Proof.Machine.execSetp p rm s
  | .setpe p rm => Sys2Proof.Machine.execSetpe p rm s
  | .setpo p rm => Sys2Proof.Machine.execSetpo p rm s
  | .sets p rm => Sys2Proof.Machine.execSets p rm s
  | .setz p rm => Sys2Proof.Machine.execSetz p rm s
  | .sgdt p rm => Sys2Proof.Machine.execSgdt p rm s
  | .sidt p rm => Sys2Proof.Machine.execSidt p rm s
  | .shldRm16R16Imm8 p rm r imm => Sys2Proof.Machine.execShldRm16R16Imm8 p rm r imm s
  | .shldRm32R32Imm8 p rm r imm => Sys2Proof.Machine.execShldRm32R32Imm8 p rm r imm s
  | .shldRm16R16Cl p rm r => Sys2Proof.Machine.execShldRm16R16Cl p rm r s
  | .shldRm32R32Cl p rm r => Sys2Proof.Machine.execShldRm32R32Cl p rm r s
  | .shrdRm16R16Imm8 p rm r imm => Sys2Proof.Machine.execShrdRm16R16Imm8 p rm r imm s
  | .shrdRm32R32Imm8 p rm r imm => Sys2Proof.Machine.execShrdRm32R32Imm8 p rm r imm s
  | .shrdRm16R16Cl p rm r => Sys2Proof.Machine.execShrdRm16R16Cl p rm r s
  | .shrdRm32R32Cl p rm r => Sys2Proof.Machine.execShrdRm32R32Cl p rm r s
  | .sldt p rm => Sys2Proof.Machine.execSldt p rm s
  | .smsw p rm => Sys2Proof.Machine.execSmsw p rm s
  | .stc p => Sys2Proof.Machine.execStc p s
  | .std p => Sys2Proof.Machine.execStd p s
  | .sti p => Sys2Proof.Machine.execSti p s
  | .stosM8 p => Sys2Proof.Machine.execStosM8 p s
  | .stosM16 p => Sys2Proof.Machine.execStosM16 p s
  | .stosM32 p => Sys2Proof.Machine.execStosM32 p s
  | .stosb p => Sys2Proof.Machine.execStosb p s
  | .stosw p => Sys2Proof.Machine.execStosw p s
  | .stosd p => Sys2Proof.Machine.execStosd p s
  | .str p rm => Sys2Proof.Machine.execStr p rm s
  | .subAlImm8 p imm => Sys2Proof.Machine.execSubAlImm8 p imm s
  | .subAxImm16 p imm => Sys2Proof.Machine.execSubAxImm16 p imm s
  | .subEaxImm32 p imm => Sys2Proof.Machine.execSubEaxImm32 p imm s
  | .subRm8Imm8 p rm imm => Sys2Proof.Machine.execSubRm8Imm8 p rm imm s
  | .subRm16Imm16 p rm imm => Sys2Proof.Machine.execSubRm16Imm16 p rm imm s
  | .subRm32Imm32 p rm imm => Sys2Proof.Machine.execSubRm32Imm32 p rm imm s
  | .subRm16Imm8 p rm imm => Sys2Proof.Machine.execSubRm16Imm8 p rm imm s
  | .subRm32Imm8 p rm imm => Sys2Proof.Machine.execSubRm32Imm8 p rm imm s
  | .subRm8R8 p rm r => Sys2Proof.Machine.execSubRm8R8 p rm r s
  | .subRm16R16 p rm r => Sys2Proof.Machine.execSubRm16R16 p rm r s
  | .subRm32R32 p rm r => Sys2Proof.Machine.execSubRm32R32 p rm r s
  | .subR8Rm8 p rm r => Sys2Proof.Machine.execSubR8Rm8 p rm r s
  | .subR16Rm16 p rm r => Sys2Proof.Machine.execSubR16Rm16 p rm r s
  | .subR32Rm32 p rm r => Sys2Proof.Machine.execSubR32Rm32 p rm r s

end Sys2Proof.Machine
end

