-- ==== Sys2Proof/Machine/Fetch.lean ====
section
/-! DEFINITION. Fetching: the bytes of `PROGRAM` at `pc` (`20_memory.md` rule R84, `10_state.md` rule R27) and the end of a run (`70_reset_and_hazards.md` rule R325). -/

namespace Sys2Proof.Machine

open Sys2Proof

/-- The number of offsets of the code segment: 2^16 in 16-bit code, else 2^32 (R27, D13). -/
def codeSpan (dflt : Size) : Nat :=
  match dflt with
  | .s16 => 2 ^ 16
  | .s32 => 2 ^ 32

/-- The bytes of `PROGRAM` from an offset on, up to its last byte and up to the wrap point (R27, R84). Fetching raises no exception. -/
def fetchBytes (s : State) : List Byte :=
  (s.program.bytes.drop (s.pc.toNat - s.program.start.toNat)).take (codeSpan s.defaultSize - s.pc.toNat)

/-- Whether `pc` is the offset of a byte of `PROGRAM`. -/
def insideProgram (s : State) : Bool :=
  decide (s.program.start.toNat ≤ s.pc.toNat) &&
    decide (s.pc.toNat < s.program.start.toNat + s.program.bytes.length)

/-- Whether `pc` is the offset just past the last byte of `PROGRAM`, reduced as `pc` is (R27, R325). The spec sets no bound on `PROGRAM`: one that reaches past the top of the code segment has its end reduced too, so that `pc` meets it before the last byte. DESIGN CHOICE: log entry 38. -/
def pastProgram (s : State) : Bool :=
  s.pc == advance s.defaultSize s.program.start s.program.bytes.length

/-- The bytes of one instruction, the longest there is, loaded at `pc`: `PROGRAM` and the memory where `Access` puts it (R84, R321). -/
def State.loadProgram (s : State) (bs : List Byte) : State :=
  let s1 := { s with program := ⟨s.pc, bs⟩ }
  { s1 with mem := s.mem.store (programLocations s1) bs }

end Sys2Proof.Machine
end

