-- ==== Sys2Proof/Machine/Step.lean ====
section
/-! DEFINITION. One step (`70_reset_and_hazards.md` rule R325): decode the instruction at `pc`, execute its rule. -/

namespace Sys2Proof.Machine

open Sys2Proof

/-- One step of a run (R325). Inside `PROGRAM` the instruction at `pc` is decoded and executed; just past it the run is completed; elsewhere there is nothing to fetch. -/
def step (s : State) : Host.Outcome State Fault Refusal :=
  if insideProgram s then
    match decode s.defaultSize (fetchBytes s) with
    | .error e => .refused (.undecodable e)
    | .ok (i, _) => exec i s
  else if pastProgram s then .fault (.completed s)
  else .refused .fetchOutsideProgram

/-- The state with a word of the opcode table loaded as the program at `pc` (log entry 13). -/
def State.withFetchWord (s : State) (nbits w : Nat) : State :=
  s.loadProgram (wordBytes nbits w)

end Sys2Proof.Machine
end

