-- ==== Sys2Proof/Safety.lean ====
section
/-! DEFINITION. The terms in which claims about the machine are stated: what a run may rely on (the invariant), what an instruction leaves alone (the frames), the results the spec's rules give, and the rows of the opcode table sorted by shape. -/

namespace Sys2Proof.Machine

open Sys2Proof

/-! ## The invariant -/

/-- The bytes of `PROGRAM` stand in memory at their locations, and every one has a location (`20_memory.md` rule R84, `70_reset_and_hazards.md` rule R321). -/
def ProgramInMemory (s : State) : Prop :=
  ∀ k, k < s.program.bytes.length →
    ∃ a, programLocation s k = some a ∧ s.program.bytes[k]? = some (s.mem.read a.toNat)

/-- The invariant of a run: memory has its canonical form and holds `PROGRAM`, and `pc` is an offset of the code segment (`10_state.md` rule R27). -/
structure Inv (s : State) : Prop where
  wf : s.mem.wf = true
  program : ProgramInMemory s
  pc : s.pc.toNat < codeSpan s.defaultSize

/-- Everything that no instruction in scope writes: the constants of a run (R7, R38, R40 to R44, R73, R84). -/
structure SameConstants (s t : State) : Prop where
  mode : t.mode = s.mode
  defaultSize : t.defaultSize = s.defaultSize
  cpl : t.cpl = s.cpl
  iopl : t.iopl = s.iopl
  segs : t.segs = s.segs
  gdtr : t.gdtr = s.gdtr
  idtr : t.idtr = s.idtr
  ldtr : t.ldtr = s.ldtr
  tr : t.tr = s.tr
  cr0 : t.cr0 = s.cr0
  nonwritable : t.nonwritable = s.nonwritable
  accessRules : t.accessRules = s.accessRules
  locations : t.locations = s.locations
  placements : t.placements = s.placements
  program : t.program = s.program

/-! ## Frames -/

/-- Every general register is as before. -/
def SameRegs (s t : State) : Prop := ∀ k, t.x k = s.x k

/-- Every byte of memory reads as before. -/
def SameMemory (s t : State) : Prop := ∀ a : Nat, t.mem.read a = s.mem.read a

/-- Register number `i` of the width holds `v`, and no other bit of any general register changed (R23). -/
def ViewWritten (w : Width) (i : BitVec 3) (v : BitVec w.bits) (s t : State) : Prop :=
  ∀ k j, j < 32 → (t.x k).getLsbD j =
    if k = viewReg w i ∧ viewLow w i ≤ j ∧ j < viewLow w i + w.bits then v.getLsbD (j - viewLow w i)
    else (s.x k).getLsbD j

/-- The bytes `b 0`, `b 1`, … were stored at the physical addresses `p`, in that order, and every other byte of memory reads as before. An address that comes twice holds what was stored last. -/
def BytesStored (p : List Dword) (b : Nat → Byte) (s t : State) : Prop :=
  (∀ a : Nat, (∀ q ∈ p, q.toNat ≠ a) → t.mem.read a = s.mem.read a) ∧
  ∀ k, ∀ hk : k < p.length, (∀ j, ∀ hj : j < p.length, k < j → p[j] ≠ p[k]) →
    t.mem.read p[k].toNat = b k

/-- The place holds `v`, and nothing else among registers and memory changed. -/
def Holds (w : Width) (pl : Place) (v : BitVec w.bits) (s t : State) : Prop :=
  match pl with
  | .reg i => ViewWritten w i v s t ∧ SameMemory s t
  | .mem p => SameRegs s t ∧ BytesStored p (fun k => v.extractLsb' (8 * k) 8) s t

/-- The place is no memory of `PROGRAM`, so that a store to it is not refused (R84). -/
def storable (s : State) (pl : Place) : Bool :=
  match pl with
  | .reg _ => true
  | .mem p => !hitsProgram s p

/-- What completing an instruction other than STI does besides its own effect: `pc` moves past it (R27), `sti_shadow` is cleared (R256), the constants stay. -/
structure Completes (i : Instr) (s t : State) : Prop where
  pc : t.pc.toNat = (s.pc.toNat + instrLength i) % codeSpan s.defaultSize
  shadow : t.stiShadow = false
  constants : SameConstants s t

/-! ## Results -/

/-- The flags of `Sub_n(a, b, c)` (R34): CF, AF and OF from exact integers, SF, ZF and PF from the result `r`; DF and IF stay. -/
structure SubFlagsRule {n : Nat} (a b : BitVec n) (c : Bool) (r : BitVec n) (f g : Flags) : Prop where
  CF : g.CF = true ↔ (a.toNat : Int) - b.toNat - c.toNat < 0
  AF : g.AF = true ↔ (a.toNat : Int) % 16 - (b.toNat : Int) % 16 - c.toNat < 0
  OF : g.OF = true ↔
    ¬ (-(2 ^ (n - 1)) ≤ a.toInt - b.toInt - c.toNat ∧ a.toInt - b.toInt - c.toNat ≤ 2 ^ (n - 1) - 1)
  SF : g.SF = r.getLsbD (n - 1)
  ZF : g.ZF = true ↔ r.toNat = 0
  PF : g.PF = parity8 r
  DF : g.DF = f.DF
  IF : g.IF = f.IF

/-- SF, ZF and PF are those of the result `r` (R33); DF and IF stay. -/
structure ResultFlagsRule {n : Nat} (r : BitVec n) (f g : Flags) : Prop where
  SF : g.SF = r.getLsbD (n - 1)
  ZF : g.ZF = true ↔ r.toNat = 0
  PF : g.PF = parity8 r
  DF : g.DF = f.DF
  IF : g.IF = f.IF

/-- The result of a shift of `a` by `c` ≥ 1, the closed form of R144. -/
def shiftResultRule (op : ShiftOp) {n : Nat} (a : BitVec n) (c : Nat) : BitVec n :=
  match op with
  | .sal => BitVec.ofNat n (a.toNat * 2 ^ c)
  | .shr => BitVec.ofNat n (a.toNat / 2 ^ c)
  | .sar => BitVec.ofInt n (a.toInt / 2 ^ c)

/-- CF after a shift of `a` by `c` ≥ 1, the closed form of R144. -/
def shiftCarryRule (op : ShiftOp) {n : Nat} (a : BitVec n) (c : Nat) : Bool :=
  match op with
  | .sal => if c ≤ n then a.getLsbD (n - c) else false
  | .shr => if c ≤ n then a.getLsbD (c - 1) else false
  | .sar => if c ≤ n then a.getLsbD (c - 1) else a.getLsbD (n - 1)

/-- OF after a single shift of `a` (R150: the top two bits differ; R151: 0; R152: the high-order bit). -/
def shiftOverflowRule (op : ShiftOp) {n : Nat} (a : BitVec n) : Bool :=
  match op with
  | .sal => a.getLsbD (n - 1) ^^ a.getLsbD (n - 2)
  | .sar => false
  | .shr => a.getLsbD (n - 1)

/-- The result of a double shift of `a` with `b` by 0 < `k` < `n`, the closed form of R226. -/
def doubleResultRule (op : DoubleOp) {n : Nat} (a b : BitVec n) (k : Nat) : Nat :=
  match op with
  | .shld => a.toNat * 2 ^ k % 2 ^ n + b.toNat / 2 ^ (n - k)
  | .shrd => a.toNat / 2 ^ k + b.toNat * 2 ^ (n - k) % 2 ^ n

/-- CF after a double shift by 0 < `k` < `n` (R226). -/
def doubleCarryRule (op : DoubleOp) {n : Nat} (a : BitVec n) (k : Nat) : Bool :=
  match op with
  | .shld => a.getLsbD (n - k)
  | .shrd => a.getLsbD (k - 1)

/-- Byte `k` of the image of a descriptor table register (R212); byte 5 of the 16-bit form is `spare`. -/
def imageByte (t : DescTable) (osz : Size) (spare : Byte) (k : Nat) : Byte :=
  match k with
  | 0 => t.limit.extractLsb' 0 8
  | 1 => t.limit.extractLsb' 8 8
  | 2 => t.base.extractLsb' 0 8
  | 3 => t.base.extractLsb' 8 8
  | 4 => t.base.extractLsb' 16 8
  | _ =>
    match osz with
    | .s32 => t.base.extractLsb' 24 8
    | .s16 => spare

/-! ## The rows of the opcode table by shape (`30_encoding.md` rules R105, R106) -/

/-- SRC of a subtraction: an immediate already extended to the width, a register, or the `r/m` operand. -/
inductive SubSource (w : Width) where
  | imm (v : BitVec w.bits)
  | reg (r : BitVec 3)
  | rm (rm : RM)

/-- A row of SUB or SBB: its width, prefixes, DEST and SRC. A register DEST that the encoding names otherwise is written as a register `r/m`. -/
structure SubRow where
  op : SubOp
  w : Width
  pre : Prefixes
  dest : RM
  src : SubSource w

/-- The rows of SUB and SBB (R160, R270). -/
def subRow : Instr → Option SubRow
  | .sbbAlImm8 p imm => some ⟨.sbb, .w8, p, .reg 0, .imm imm⟩
  | .sbbAxImm16 p imm => some ⟨.sbb, .w16, p, .reg 0, .imm imm⟩
  | .sbbEaxImm32 p imm => some ⟨.sbb, .w32, p, .reg 0, .imm imm⟩
  | .sbbRm8Imm8 p rm imm => some ⟨.sbb, .w8, p, rm, .imm imm⟩
  | .sbbRm16Imm16 p rm imm => some ⟨.sbb, .w16, p, rm, .imm imm⟩
  | .sbbRm32Imm32 p rm imm => some ⟨.sbb, .w32, p, rm, .imm imm⟩
  | .sbbRm16Imm8 p rm imm => some ⟨.sbb, .w16, p, rm, .imm (imm.signExtend 16)⟩
  | .sbbRm32Imm8 p rm imm => some ⟨.sbb, .w32, p, rm, .imm (imm.signExtend 32)⟩
  | .sbbRm8R8 p rm r => some ⟨.sbb, .w8, p, rm, .reg r⟩
  | .sbbRm16R16 p rm r => some ⟨.sbb, .w16, p, rm, .reg r⟩
  | .sbbRm32R32 p rm r => some ⟨.sbb, .w32, p, rm, .reg r⟩
  | .sbbR8Rm8 p rm r => some ⟨.sbb, .w8, p, .reg r, .rm rm⟩
  | .sbbR16Rm16 p rm r => some ⟨.sbb, .w16, p, .reg r, .rm rm⟩
  | .sbbR32Rm32 p rm r => some ⟨.sbb, .w32, p, .reg r, .rm rm⟩
  | .subAlImm8 p imm => some ⟨.sub, .w8, p, .reg 0, .imm imm⟩
  | .subAxImm16 p imm => some ⟨.sub, .w16, p, .reg 0, .imm imm⟩
  | .subEaxImm32 p imm => some ⟨.sub, .w32, p, .reg 0, .imm imm⟩
  | .subRm8Imm8 p rm imm => some ⟨.sub, .w8, p, rm, .imm imm⟩
  | .subRm16Imm16 p rm imm => some ⟨.sub, .w16, p, rm, .imm imm⟩
  | .subRm32Imm32 p rm imm => some ⟨.sub, .w32, p, rm, .imm imm⟩
  | .subRm16Imm8 p rm imm => some ⟨.sub, .w16, p, rm, .imm (imm.signExtend 16)⟩
  | .subRm32Imm8 p rm imm => some ⟨.sub, .w32, p, rm, .imm (imm.signExtend 32)⟩
  | .subRm8R8 p rm r => some ⟨.sub, .w8, p, rm, .reg r⟩
  | .subRm16R16 p rm r => some ⟨.sub, .w16, p, rm, .reg r⟩
  | .subRm32R32 p rm r => some ⟨.sub, .w32, p, rm, .reg r⟩
  | .subR8Rm8 p rm r => some ⟨.sub, .w8, p, .reg r, .rm rm⟩
  | .subR16Rm16 p rm r => some ⟨.sub, .w16, p, .reg r, .rm rm⟩
  | .subR32Rm32 p rm r => some ⟨.sub, .w32, p, .reg r, .rm rm⟩
  | _ => none

/-- The value of SRC before the instruction, or the exception of reading it. -/
def SubRow.source (q : SubRow) (s : State) : Except Exc (BitVec q.w.bits) :=
  match q.src with
  | .imm v => .ok v
  | .reg r => .ok (readReg q.w r s)
  | .rm rm =>
    match operandPlace q.pre rm q.w.bytes .read s with
    | .error e => .error e
    | .ok pl => .ok (readPlace q.w pl s)

/-- A row of a shift: its width, prefixes, operand and count. -/
structure ShiftRow where
  op : ShiftOp
  w : Width
  pre : Prefixes
  rm : RM
  count : CountSource

/-- The rows of SAL, SHL, SAR and SHR (R140). -/
def shiftRow : Instr → Option ShiftRow
  | .salRm8One p rm => some ⟨.sal, .w8, p, rm, .one⟩
  | .salRm8Cl p rm => some ⟨.sal, .w8, p, rm, .cl⟩
  | .salRm8Imm8 p rm imm => some ⟨.sal, .w8, p, rm, .imm imm⟩
  | .salRm16One p rm => some ⟨.sal, .w16, p, rm, .one⟩
  | .salRm16Cl p rm => some ⟨.sal, .w16, p, rm, .cl⟩
  | .salRm16Imm8 p rm imm => some ⟨.sal, .w16, p, rm, .imm imm⟩
  | .salRm32One p rm => some ⟨.sal, .w32, p, rm, .one⟩
  | .salRm32Cl p rm => some ⟨.sal, .w32, p, rm, .cl⟩
  | .salRm32Imm8 p rm imm => some ⟨.sal, .w32, p, rm, .imm imm⟩
  | .sarRm8One p rm => some ⟨.sar, .w8, p, rm, .one⟩
  | .sarRm8Cl p rm => some ⟨.sar, .w8, p, rm, .cl⟩
  | .sarRm8Imm8 p rm imm => some ⟨.sar, .w8, p, rm, .imm imm⟩
  | .sarRm16One p rm => some ⟨.sar, .w16, p, rm, .one⟩
  | .sarRm16Cl p rm => some ⟨.sar, .w16, p, rm, .cl⟩
  | .sarRm16Imm8 p rm imm => some ⟨.sar, .w16, p, rm, .imm imm⟩
  | .sarRm32One p rm => some ⟨.sar, .w32, p, rm, .one⟩
  | .sarRm32Cl p rm => some ⟨.sar, .w32, p, rm, .cl⟩
  | .sarRm32Imm8 p rm imm => some ⟨.sar, .w32, p, rm, .imm imm⟩
  | .shlRm8One p rm => some ⟨.sal, .w8, p, rm, .one⟩
  | .shlRm8Cl p rm => some ⟨.sal, .w8, p, rm, .cl⟩
  | .shlRm8Imm8 p rm imm => some ⟨.sal, .w8, p, rm, .imm imm⟩
  | .shlRm16One p rm => some ⟨.sal, .w16, p, rm, .one⟩
  | .shlRm16Cl p rm => some ⟨.sal, .w16, p, rm, .cl⟩
  | .shlRm16Imm8 p rm imm => some ⟨.sal, .w16, p, rm, .imm imm⟩
  | .shlRm32One p rm => some ⟨.sal, .w32, p, rm, .one⟩
  | .shlRm32Cl p rm => some ⟨.sal, .w32, p, rm, .cl⟩
  | .shlRm32Imm8 p rm imm => some ⟨.sal, .w32, p, rm, .imm imm⟩
  | .shrRm8One p rm => some ⟨.shr, .w8, p, rm, .one⟩
  | .shrRm8Cl p rm => some ⟨.shr, .w8, p, rm, .cl⟩
  | .shrRm8Imm8 p rm imm => some ⟨.shr, .w8, p, rm, .imm imm⟩
  | .shrRm16One p rm => some ⟨.shr, .w16, p, rm, .one⟩
  | .shrRm16Cl p rm => some ⟨.shr, .w16, p, rm, .cl⟩
  | .shrRm16Imm8 p rm imm => some ⟨.shr, .w16, p, rm, .imm imm⟩
  | .shrRm32One p rm => some ⟨.shr, .w32, p, rm, .one⟩
  | .shrRm32Cl p rm => some ⟨.shr, .w32, p, rm, .cl⟩
  | .shrRm32Imm8 p rm imm => some ⟨.shr, .w32, p, rm, .imm imm⟩
  | _ => none

/-- A row of a double shift: its width, prefixes, operand, `inBits` register and count. -/
structure DoubleRow where
  op : DoubleOp
  w : Width
  pre : Prefixes
  rm : RM
  reg : BitVec 3
  count : CountSource

/-- The rows of SHLD and SHRD (R221). -/
def doubleRow : Instr → Option DoubleRow
  | .shldRm16R16Imm8 p rm r imm => some ⟨.shld, .w16, p, rm, r, .imm imm⟩
  | .shldRm32R32Imm8 p rm r imm => some ⟨.shld, .w32, p, rm, r, .imm imm⟩
  | .shldRm16R16Cl p rm r => some ⟨.shld, .w16, p, rm, r, .cl⟩
  | .shldRm32R32Cl p rm r => some ⟨.shld, .w32, p, rm, r, .cl⟩
  | .shrdRm16R16Imm8 p rm r imm => some ⟨.shrd, .w16, p, rm, r, .imm imm⟩
  | .shrdRm32R32Imm8 p rm r imm => some ⟨.shrd, .w32, p, rm, r, .imm imm⟩
  | .shrdRm16R16Cl p rm r => some ⟨.shrd, .w16, p, rm, r, .cl⟩
  | .shrdRm32R32Cl p rm r => some ⟨.shrd, .w32, p, rm, r, .cl⟩
  | _ => none

/-- A row of SETcc: its condition, prefixes and operand. -/
structure SetRow where
  cond : Cond
  pre : Prefixes
  rm : RM

/-- The thirty rows of SETcc with the conditions of R181. -/
def setRow : Instr → Option SetRow
  | .seta p rm => some ⟨.a, p, rm⟩
  | .setae p rm => some ⟨.ae, p, rm⟩
  | .setb p rm => some ⟨.b, p, rm⟩
  | .setbe p rm => some ⟨.be, p, rm⟩
  | .setc p rm => some ⟨.b, p, rm⟩
  | .sete p rm => some ⟨.e, p, rm⟩
  | .setg p rm => some ⟨.g, p, rm⟩
  | .setge p rm => some ⟨.ge, p, rm⟩
  | .setl p rm => some ⟨.l, p, rm⟩
  | .setle p rm => some ⟨.le, p, rm⟩
  | .setna p rm => some ⟨.be, p, rm⟩
  | .setnae p rm => some ⟨.b, p, rm⟩
  | .setnb p rm => some ⟨.ae, p, rm⟩
  | .setnbe p rm => some ⟨.a, p, rm⟩
  | .setnc p rm => some ⟨.ae, p, rm⟩
  | .setne p rm => some ⟨.ne, p, rm⟩
  | .setng p rm => some ⟨.le, p, rm⟩
  | .setnge p rm => some ⟨.l, p, rm⟩
  | .setnl p rm => some ⟨.ge, p, rm⟩
  | .setnle p rm => some ⟨.g, p, rm⟩
  | .setno p rm => some ⟨.no, p, rm⟩
  | .setnp p rm => some ⟨.np, p, rm⟩
  | .setns p rm => some ⟨.ns, p, rm⟩
  | .setnz p rm => some ⟨.ne, p, rm⟩
  | .seto p rm => some ⟨.o, p, rm⟩
  | .setp p rm => some ⟨.p, p, rm⟩
  | .setpe p rm => some ⟨.p, p, rm⟩
  | .setpo p rm => some ⟨.np, p, rm⟩
  | .sets p rm => some ⟨.s, p, rm⟩
  | .setz p rm => some ⟨.e, p, rm⟩
  | _ => none

/-- A row of a string instruction: its width and prefixes. -/
structure StringRow where
  w : Width
  pre : Prefixes

/-- The six rows of SCAS (R170). -/
def scasRow : Instr → Option StringRow
  | .scasM8 p => some ⟨.w8, p⟩
  | .scasM16 p => some ⟨.w16, p⟩
  | .scasM32 p => some ⟨.w32, p⟩
  | .scasb p => some ⟨.w8, p⟩
  | .scasw p => some ⟨.w16, p⟩
  | .scasd p => some ⟨.w32, p⟩
  | _ => none

/-- The six rows of STOS (R260). -/
def stosRow : Instr → Option StringRow
  | .stosM8 p => some ⟨.w8, p⟩
  | .stosM16 p => some ⟨.w16, p⟩
  | .stosM32 p => some ⟨.w32, p⟩
  | .stosb p => some ⟨.w8, p⟩
  | .stosw p => some ⟨.w16, p⟩
  | .stosd p => some ⟨.w32, p⟩
  | _ => none

/-- A row that stores a 16-bit system register: the value, whether it is recognised in Protected Mode only, prefixes and operand. -/
structure SystemRow where
  value : Half
  protectedOnly : Bool
  pre : Prefixes
  rm : RM

/-- The rows of SLDT, SMSW and STR with what they store (R240, R245, R265). -/
def systemRow (s : State) : Instr → Option SystemRow
  | .sldt p rm => some ⟨s.ldtr, true, p, rm⟩
  | .smsw p rm => some ⟨s.cr0.extractLsb' 0 16, false, p, rm⟩
  | .str p rm => some ⟨s.tr, true, p, rm⟩
  | _ => none

/-- A row that stores a descriptor table register: the register, prefixes and operand. -/
structure TableRow where
  table : DescTable
  pre : Prefixes
  rm : RM

/-- The rows of SGDT and SIDT with what they store (R210, R211). -/
def tableRow (s : State) : Instr → Option TableRow
  | .sgdt p rm => some ⟨s.gdtr, p, rm⟩
  | .sidt p rm => some ⟨s.idtr, p, rm⟩
  | _ => none

/-- The opcode nibble `cc` of a condition: SETcc is 0F 90 + `cc` (R181). -/
def Cond.code : Cond → Byte
  | .o => 0x0
  | .no => 0x1
  | .b => 0x2
  | .ae => 0x3
  | .e => 0x4
  | .ne => 0x5
  | .be => 0x6
  | .a => 0x7
  | .s => 0x8
  | .ns => 0x9
  | .p => 0xA
  | .np => 0xB
  | .l => 0xC
  | .ge => 0xD
  | .le => 0xE
  | .g => 0xF

/-! ## Memory accesses and exceptions of an instruction (`20_memory.md` rules R62, R75, `60_exceptions.md` rule R286) -/

/-- One request to `Access` (R64). -/
structure Request where
  ref : MemRef
  bytes : Nat
  kind : AccessKind

/-- The request for a memory `r/m` operand; none for a register. -/
def rmRequest (p : Prefixes) (n : Nat) (kind : AccessKind) (s : State) : RM → Option Request
  | .reg _ => none
  | .mem m => some ⟨memRef p m s, n, kind⟩

/-- The request of a subtraction: a read-modify-write of a memory DEST, a read of a memory SRC (R162, R272). -/
def SubRow.request (q : SubRow) (s : State) : Option Request :=
  match q.src with
  | .rm rm => rmRequest q.pre q.w.bytes .read s rm
  | .imm _ => rmRequest q.pre q.w.bytes .readwrite s q.dest
  | .reg _ => rmRequest q.pre q.w.bytes .readwrite s q.dest

/-- The one request to `Access` that an instruction makes, if it makes one (R75): the rows whose encoding is not recognised in the mode make none (R109). -/
def request (i : Instr) (s : State) : Option Request :=
  (subRow i).bind (fun q => q.request s)
  <|> (shiftRow i).bind (fun q => rmRequest q.pre q.w.bytes .readwrite s q.rm)
  <|> (doubleRow i).bind (fun q => rmRequest q.pre q.w.bytes .readwrite s q.rm)
  <|> (setRow i).bind (fun q => rmRequest q.pre 1 .write s q.rm)
  <|> (scasRow i).bind (fun q => some ⟨stringRef (q.pre.addressSize s.defaultSize) s, q.w.bytes, .read⟩)
  <|> (stosRow i).bind (fun q => some ⟨stringRef (q.pre.addressSize s.defaultSize) s, q.w.bytes, .write⟩)
  <|> (tableRow s i).bind (fun q => rmRequest q.pre 6 .write s q.rm)
  <|> (systemRow s i).bind (fun q =>
        if q.protectedOnly = true ∧ s.mode ≠ .prot then none else rmRequest q.pre 2 .write s q.rm)

/-- Whether Interrupt 6 is raised before any operand is looked at (R109, R284). -/
def unrecognised (i : Instr) (s : State) : Bool :=
  match i with
  | .sgdt _ (.reg _) => true
  | .sidt _ (.reg _) => true
  | .sldt _ _ => s.mode != .prot
  | .str _ _ => s.mode != .prot
  | _ => false

/-- Whether the instruction is an STI whose privilege check fails (R257). -/
def stiDenied (i : Instr) (s : State) : Bool :=
  match i with
  | .sti _ =>
    (s.mode == .prot && decide (s.iopl.toNat < s.cpl.toNat)) || (s.mode == .v86 && decide (s.iopl.toNat < 3))
  | _ => false

/-- Whether the instruction is a shift or double shift with a count of 0, which writes no operand (R142, R222). -/
def countIsZero (i : Instr) (s : State) : Bool :=
  (shiftRow i).any (fun q => shiftCount q.count s == 0) || (doubleRow i).any (fun q => shiftCount q.count s == 0)

/-! ## Encodings that are listed (R92, R93, R105, R106, R110) -/

/-- The kinds of prefix that may come at most once each (R92, R93). -/
inductive PrefixKind where
  | opsize
  | addrsize
  | override
deriving DecidableEq, Repr

/-- The admitted prefix bytes and their kinds (R92). -/
def prefixKind (b : Byte) : Option PrefixKind :=
  if b = 0x66 then some .opsize
  else if b = 0x67 then some .addrsize
  else if b ∈ [0x26#8, 0x2E#8, 0x36#8, 0x3E#8, 0x64#8, 0x65#8] then some .override
  else none

/-- The one-byte opcodes of R105. -/
def listedOneByte : List Byte :=
  [0x18, 0x19, 0x1A, 0x1B, 0x1C, 0x1D, 0x28, 0x29, 0x2A, 0x2B, 0x2C, 0x2D, 0x80, 0x81, 0x83, 0x9E, 0xAA, 0xAB,
   0xAE, 0xAF, 0xC0, 0xC1, 0xD0, 0xD1, 0xD2, 0xD3, 0xF9, 0xFB, 0xFD]

/-- The second bytes of the two-byte opcodes of R106. -/
def listedTwoByte : List Byte :=
  [0x00, 0x01, 0x90, 0x91, 0x92, 0x93, 0x94, 0x95, 0x96, 0x97, 0x98, 0x99, 0x9A, 0x9B, 0x9C, 0x9D, 0x9E, 0x9F,
   0xA4, 0xA5, 0xAC, 0xAD]

/-- The opcodes with a digit and the digits that R105 and R106 list for them. -/
def listedDigits : List (List Byte × List (BitVec 3)) :=
  [([0x80], [3, 5]), ([0x81], [3, 5]), ([0x83], [3, 5]),
   ([0xC0], [4, 5, 7]), ([0xC1], [4, 5, 7]), ([0xD0], [4, 5, 7]), ([0xD1], [4, 5, 7]), ([0xD2], [4, 5, 7]),
   ([0xD3], [4, 5, 7]), ([0x0F, 0x00], [0, 1]), ([0x0F, 0x01], [0, 1, 4])]

/-! ## Effective addresses (R98, R99, R100) -/

/-- The sum of the registers in row `rm` of R98, as an exact number: BX = 3, BP = 5, SI = 6, DI = 7. -/
def base16Sum (s : State) (rm : BitVec 3) : Nat :=
  match rm.toNat with
  | 0 => (readReg .w16 3 s).toNat + (readReg .w16 6 s).toNat
  | 1 => (readReg .w16 3 s).toNat + (readReg .w16 7 s).toNat
  | 2 => (readReg .w16 5 s).toNat + (readReg .w16 6 s).toNat
  | 3 => (readReg .w16 5 s).toNat + (readReg .w16 7 s).toNat
  | 4 => (readReg .w16 6 s).toNat
  | 5 => (readReg .w16 7 s).toNat
  | 6 => (readReg .w16 5 s).toNat
  | _ => (readReg .w16 3 s).toNat

/-- The default segment of row `rm` of R98, where it has a register. -/
def base16Seg (rm : BitVec 3) : Seg := if rm = 2 ∨ rm = 3 ∨ rm = 6 then .ss else .ds

/-- The offset of a memory operand and the bytes its displacement takes, from `mod`, for a base that is not the displacement alone: no byte for `mod` = 0, one byte sign-extended for `mod` = 1, all `n / 8` bytes for `mod` = 2 (R98, R99, R100). -/
def OffsetIs (n : Nat) (md : BitVec 2) (base : Nat) (bs rest : List Byte) (off : Dword) : Prop :=
  (md = 0 → bs = rest ∧ off.toNat = base % 2 ^ n) ∧
  (md = 1 → ∃ d : Byte, bs = d :: rest ∧ (off.toNat : Int) = (base + d.toInt) % 2 ^ n) ∧
  (md = 2 → ∃ ds, ds.length = n / 8 ∧ bs = ds ++ rest ∧ off.toNat = (base + bytesToNat ds) % 2 ^ n)

/-- The offset is the displacement alone, of `n / 8` bytes, and the default segment is DS. -/
def DisplacementAlone (n : Nat) (base : Nat) (bs rest : List Byte) (off : Dword) : Prop :=
  ∃ ds, ds.length = n / 8 ∧ bs = ds ++ rest ∧ off.toNat = (base + bytesToNat ds) % 2 ^ n

/-- The index part of a SIB byte: `x[index]` times 2^`ss`, nothing for `index` = 4 (R100). -/
def sibIndex (s : State) (sib : Byte) : Nat :=
  if sib.extractLsb' 3 3 = 4 then 0 else (s.x (sib.extractLsb' 3 3)).toNat * 2 ^ (sib.extractLsb' 6 2).toNat

/-- Where a string operand stands: in ES, at DI zero-extended with 16-bit addressing and at EDI with 32-bit addressing (R170, R171, R260, R261). -/
structure StringOperandAt (z : Size) (s : State) (r : MemRef) : Prop where
  seg : r.seg = .es
  addrsize : r.addrsize = z
  off : r.off.toNat =
    match z with
    | .s16 => (s.x 7).toNat % 2 ^ 16
    | .s32 => (s.x 7).toNat

/-- DI or EDI moved by the operand's bytes in the direction of DF, and no other bit of a register changed (R37, R170, R260). -/
def IndexStepped (addrsize : Size) (k : Nat) (s t : State) : Prop :=
  match addrsize with
  | .s16 => ViewWritten .w16 7
      (BitVec.ofInt 16 ((readReg .w16 7 s).toNat + if s.flags.DF then -(k : Int) else k)) s t
  | .s32 => ViewWritten .w32 7 (BitVec.ofInt 32 ((s.x 7).toNat + if s.flags.DF then -(k : Int) else k)) s t

end Sys2Proof.Machine
end

