-- ==== Sys2Proof/Certificates/Slice0/Obligations.lean ====
section
/-! DEFINITION. The statements for the provers. Each docstring names the rules of `spec/` it formalises; where a clause rests on a choice of the model it names the log entry. -/

section

open Sys2Proof Sys2Proof.Machine

/-! ## Encoding -/

/-- The bytes of an encodable instruction decode to it, or to the first row with that encoding (R90, R107, R112), and the bytes after it are left. -/
def Obligations.DecodeEncodeRoundTrip : Prop :=
  ∀ (dflt : Size) (i : Instr) (rest : List Byte), i.wellFormed dflt = true →
    decode dflt (encode i ++ rest) = .ok (canonical i, rest)

/-- What the decoder answers is an encodable instruction, never a second spelling; it takes as many bytes as the instruction is long, 14 at most (R104, R107). -/
def Obligations.DecodedInstructionIsEncodable : Prop :=
  ∀ (dflt : Size) (bs rest : List Byte) (i : Instr), decode dflt bs = .ok (i, rest) →
    i.wellFormed dflt = true ∧ canonical i = i ∧
      (∃ used, bs = used ++ rest ∧ used.length = instrLength i) ∧ instrLength i ≤ 14

/-- Words written out from R92, R94, R98 to R100, R105 and R106 decode to the instructions they stand for: every format (`OP`, `OP_I`, `OP_M`, `OP_M_I`, `0F_M`, `0F_M_I`), and of the memory operands the direct form and `mod` 0, 1 and 2 of either address size, and SIB bytes without index, with a scaled index, and without base. Those of `95_test_vectors.md`, section 10, stand first. -/
def Obligations.SampleWordsDecode : Prop :=
  decode .s32 [0x9E] = .ok (.sahf Prefixes.none, []) ∧
  decode .s32 [0x29, 0xD8] = .ok (.subRm32R32 Prefixes.none (.reg 0) 3, []) ∧
  decode .s32 [0x2B, 0xD8] = .ok (.subR32Rm32 Prefixes.none (.reg 0) 3, []) ∧
  decode .s32 [0x66, 0x29, 0xD8] = .ok (.subRm16R16 ⟨true, false, none⟩ (.reg 0) 3, []) ∧
  decode .s32 [0x83, 0xD8, 0xFF] = .ok (.sbbRm32Imm8 Prefixes.none (.reg 0) 0xFF, []) ∧
  decode .s32 [0x19, 0x4C, 0x24, 0x04] =
    .ok (.sbbRm32R32 Prefixes.none (.mem (.a32 (.sib 4 .none (.d8 0x04)))) 1, []) ∧
  decode .s32 [0x3E, 0x0F, 0x95, 0x45, 0xFC] =
    .ok (.setne ⟨false, false, some .ds⟩ (.mem (.a32 (.based 5 (.d8 0xFC)))), []) ∧
  decode .s32 [0x0F, 0xA4, 0xC2, 0x04] = .ok (.shldRm32R32Imm8 Prefixes.none (.reg 2) 0 0x04, []) ∧
  decode .s32 [0x67, 0xD1, 0x27] = .ok (.salRm32One ⟨false, true, none⟩ (.mem (.a16 (.based .bx .none))), []) ∧
  decode .s16 [0xD0, 0x3E, 0x34, 0x12] = .ok (.sarRm8One Prefixes.none (.mem (.a16 (.direct 0x1234))), []) ∧
  decode .s32 [0xAB] = .ok (.stosM32 Prefixes.none, []) ∧
  decode .s32 [0x0F, 0x01, 0xE0] = .ok (.smsw Prefixes.none (.reg 0), []) ∧
  decode .s32 [0x2C, 0x01] = .ok (.subAlImm8 Prefixes.none 0x01, []) ∧
  decode .s32 [0x66, 0x2D, 0x34, 0x12] = .ok (.subAxImm16 ⟨true, false, none⟩ 0x1234, []) ∧
  decode .s32 [0x81, 0x2C, 0x8D, 0x00, 0x10, 0x00, 0x00, 0x78, 0x56, 0x34, 0x12] =
    .ok (.subRm32Imm32 Prefixes.none (.mem (.a32 (.sibNoBase (.scaled 1 2) 0x00001000))) 0x12345678, []) ∧
  decode .s32 [0x0F, 0xAD, 0x13] = .ok (.shrdRm32R32Cl Prefixes.none (.mem (.a32 (.based 3 .none))) 2, []) ∧
  decode .s32 [0x0F, 0x90, 0x05, 0x78, 0x56, 0x34, 0x12] =
    .ok (.seto Prefixes.none (.mem (.a32 (.direct 0x12345678))), []) ∧
  decode .s32 [0x0F, 0x9D, 0x83, 0x00, 0x10, 0x00, 0x00] =
    .ok (.setge Prefixes.none (.mem (.a32 (.based 3 (.full 0x00001000)))), []) ∧
  decode .s32 [0x0F, 0x94, 0x84, 0xCB, 0x44, 0x33, 0x22, 0x11] =
    .ok (.sete Prefixes.none (.mem (.a32 (.sib 3 (.scaled 1 3) (.full 0x11223344)))), []) ∧
  decode .s16 [0x0F, 0x98, 0x46, 0x80] = .ok (.sets Prefixes.none (.mem (.a16 (.based .bp (.d8 0x80)))), []) ∧
  decode .s16 [0x65, 0x0F, 0x9A, 0x82, 0x34, 0x12] =
    .ok (.setp ⟨false, false, some .gs⟩ (.mem (.a16 (.based .bpSi (.full 0x1234)))), [])

/-- Prefixes may come in any order (R92). -/
def Obligations.PrefixOrderHasNoEffect : Prop :=
  ∀ (dflt : Size) (l l' rest : List Byte), (∀ b ∈ l, prefixKind b ≠ none) → l.Perm l' →
    decode dflt (l ++ rest) = decode dflt (l' ++ rest)

/-- F0, F2 and F3 after any admitted prefixes are refused, and so is a second prefix of one kind (R93). -/
def Obligations.RefusedPrefixBytes : Prop :=
  ∀ (dflt : Size) (l rest : List Byte), (∀ x ∈ l, prefixKind x ≠ none) →
    (∀ b ∈ [0xF0#8, 0xF2#8, 0xF3#8],
      ∃ e ∈ [DecodeError.lockPrefix, .repPrefix, .repeatedPrefix], decode dflt (l ++ b :: rest) = .error e) ∧
    (∀ b, prefixKind b ≠ none → prefixKind b ∈ l.map prefixKind →
      decode dflt (l ++ b :: rest) = .error .repeatedPrefix)

/-- An opcode or a digit that R105 and R106 do not list is refused, by name; it does not raise Interrupt 6 (R110). -/
def Obligations.UnlistedEncodingsRefused : Prop :=
  ∀ (dflt : Size) (p : Prefixes) (rest : List Byte),
    (∀ b, b ∉ listedOneByte → prefixByte b = none → b ≠ 0x0F →
      decode dflt (encodePrefixes p ++ b :: rest) = .error (.unlistedOpcode b)) ∧
    (∀ b, b ∉ listedTwoByte →
      decode dflt (encodePrefixes p ++ 0x0F :: b :: rest) = .error (.unlistedOpcode0F b)) ∧
    (∀ o ds b, (o, ds) ∈ listedDigits → b.extractLsb' 3 3 ∉ ds →
      decode dflt (encodePrefixes p ++ (o ++ b :: rest)) = .error (.unlistedDigit (b.extractLsb' 3 3)))

/-- The `reg` field of the ModRM byte of 0F 90 to 0F 9F is not used, whatever prefixes come before and whatever the operand is (R103). -/
def Obligations.SetccRegFieldIgnored : Prop :=
  ∀ (dflt : Size) (l rest : List Byte) (b m m' : Byte), (∀ x ∈ l, prefixKind x ≠ none) → 0x90 ≤ b → b ≤ 0x9F →
    m.extractLsb' 6 2 = m'.extractLsb' 6 2 → m.extractLsb' 0 3 = m'.extractLsb' 0 3 →
      decode dflt (l ++ 0x0F :: b :: m :: rest) = decode dflt (l ++ 0x0F :: b :: m' :: rest)

/-- A second spelling has the encoding and the meaning of the first row with that encoding (R112). -/
def Obligations.SecondSpellingsAreOneInstruction : Prop :=
  ∀ (i : Instr) (s : State), encode (canonical i) = encode i ∧ exec (canonical i) s = exec i s

/-! ## Effective addresses -/

/-- The offset and the segment of a memory operand with 16-bit addressing, from the bytes of its encoding (R98); an override prefix replaces the segment (R62, R92). -/
def Obligations.EffectiveAddress16 : Prop :=
  ∀ (s : State) (p : Prefixes) (md : BitVec 2) (rm : BitVec 3) (bs rest : List Byte) (m : MemOperand),
    md ≠ 3 → decodeMem .s16 md rm bs = .ok (m, rest) →
      (memRef p m s).addrsize = .s16 ∧
      (if md = 0 ∧ rm = 6 then
        DisplacementAlone 16 0 bs rest (memRef p m s).off ∧ (memRef p m s).seg = p.seg.getD .ds
      else
        OffsetIs 16 md (base16Sum s rm) bs rest (memRef p m s).off ∧
          (memRef p m s).seg = p.seg.getD (base16Seg rm))

/-- The offset and the segment of a memory operand with 32-bit addressing and no SIB byte, from the bytes of its encoding (R99). -/
def Obligations.EffectiveAddress32 : Prop :=
  ∀ (s : State) (p : Prefixes) (md : BitVec 2) (rm : BitVec 3) (bs rest : List Byte) (m : MemOperand),
    md ≠ 3 → rm ≠ 4 → decodeMem .s32 md rm bs = .ok (m, rest) →
      (memRef p m s).addrsize = .s32 ∧
      (if md = 0 ∧ rm = 5 then
        DisplacementAlone 32 0 bs rest (memRef p m s).off ∧ (memRef p m s).seg = p.seg.getD .ds
      else
        OffsetIs 32 md (s.x rm).toNat bs rest (memRef p m s).off ∧
          (memRef p m s).seg = p.seg.getD (if rm = 5 then .ss else .ds))

/-- The offset and the segment of a memory operand with a SIB byte, from the bytes of its encoding; no index with a scale is refused (R100). -/
def Obligations.EffectiveAddressSib : Prop :=
  ∀ (s : State) (p : Prefixes) (md : BitVec 2) (sib : Byte) (bs : List Byte), md ≠ 3 →
    (sib.extractLsb' 3 3 = 4 ∧ sib.extractLsb' 6 2 ≠ 0 →
      decodeMem .s32 md 4 (sib :: bs) = .error .scaledNoIndex) ∧
    ∀ (rest : List Byte) (m : MemOperand), decodeMem .s32 md 4 (sib :: bs) = .ok (m, rest) →
      (memRef p m s).addrsize = .s32 ∧
      (if md = 0 ∧ sib.extractLsb' 0 3 = 5 then
        DisplacementAlone 32 (sibIndex s sib) bs rest (memRef p m s).off ∧ (memRef p m s).seg = p.seg.getD .ds
      else
        OffsetIs 32 md ((s.x (sib.extractLsb' 0 3)).toNat + sibIndex s sib) bs rest (memRef p m s).off ∧
          (memRef p m s).seg =
            p.seg.getD (if sib.extractLsb' 0 3 = 4 ∨ sib.extractLsb' 0 3 = 5 then .ss else .ds))

/-! ## Registers, flags and results -/

/-- The 16-bit registers are the low halves, AL to BL the low bytes and AH to BH bits 15:8 of the 32-bit registers (R21, R22). -/
def Obligations.RegisterViews : Prop :=
  ∀ (s : State),
    (∀ i, readReg .w32 i s = s.x i) ∧
    (∀ i, readReg .w16 i s = (s.x i).extractLsb' 0 16) ∧
    readReg .w8 0 s = (s.x 0).extractLsb' 0 8 ∧ readReg .w8 1 s = (s.x 1).extractLsb' 0 8 ∧
    readReg .w8 2 s = (s.x 2).extractLsb' 0 8 ∧ readReg .w8 3 s = (s.x 3).extractLsb' 0 8 ∧
    readReg .w8 4 s = (s.x 0).extractLsb' 8 8 ∧ readReg .w8 5 s = (s.x 1).extractLsb' 8 8 ∧
    readReg .w8 6 s = (s.x 2).extractLsb' 8 8 ∧ readReg .w8 7 s = (s.x 3).extractLsb' 8 8

/-- `Parity8` is 1 when bits 7:0 hold an even number of 1 bits, whatever the width (R31). -/
def Obligations.ParityOfLowByte : Prop :=
  (∀ (n : Nat) (r : BitVec n), parity8 r = true ↔ ((List.range 8).countP fun k => r.getLsbD k) % 2 = 0) ∧
  parity8 0x00#8 = true ∧ parity8 0x01#8 = false ∧ parity8 0x03#8 = true ∧ parity8 0x0100#16 = true ∧
  parity8 0x7F#8 = false

/-- `Sub_n` by its formulas and by the equivalent ones the rule gives: the result mod 2^n, CF the borrow, AF bit 4 of `a xor b xor r`, OF by the sign bits (R34). -/
def Obligations.SubtractionFormulas : Prop :=
  ∀ (w : Width) (a b : BitVec w.bits) (c : Bool) (f : Flags),
    let r := subResult a b c
    let g := subFlags a b c f
    ((r.toNat : Int) = ((a.toNat : Int) - b.toNat - c.toNat) % 2 ^ w.bits) ∧
    SubFlagsRule a b c r f g ∧
    (g.CF = true ↔ a.toNat < b.toNat + c.toNat) ∧
    g.AF = (a ^^^ b ^^^ r).getLsbD 4 ∧
    (g.OF = true ↔ a.msb ≠ b.msb ∧ r.msb ≠ a.msb)

/-- The loop of R143 in closed form, for every count from 1 on (R144). -/
def Obligations.ShiftLoopClosedForm : Prop :=
  ∀ (op : ShiftOp) (w : Width) (a : BitVec w.bits) (c : Nat) (cf : Bool), 1 ≤ c →
    shiftLoop op c a cf = (shiftResultRule op a c, shiftCarryRule op a c)

/-- A double shift in closed form, as numbers and as the bits of the two operands side by side (R226). -/
def Obligations.DoubleShiftClosedForm : Prop :=
  ∀ (w : Width) (a b : BitVec w.bits) (k : Nat), 0 < k → k < w.bits →
    (∀ op, ((doubleShift op a b k).1.toNat = doubleResultRule op a b k) ∧
      (doubleShift op a b k).2 = doubleCarryRule op a k) ∧
    (doubleShift .shld a b k).1 = ((a ++ b) <<< k).extractLsb' w.bits w.bits ∧
    (doubleShift .shrd a b k).1 = ((b ++ a) >>> k).extractLsb' 0 w.bits

/-! ## Memory and `Access` -/

/-- The exceptions an access can answer in each mode, and when the offset check fails (R70, R71, R72). What is nonwritable, illegal or a page fault is data of the launch state (log entry 6). That a write to a nonwritable SS at an illegal address answers `GP(0)` and not `SS(0)` is the model's choice of an order (log entry 8). -/
def Obligations.AccessExceptionsByMode : Prop :=
  ∀ (s : State) (r : MemRef) (n : Nat) (kind : AccessKind), 1 ≤ n →
    (s.mode = .real →
      if 0xFFFF < r.off.toNat + n - 1 then access s r n kind = .error .int13
      else ∃ p, access s r n kind = .ok p) ∧
    (s.mode = .v86 →
      if 0xFFFF < r.off.toNat + n - 1 then access s r n kind = .error .int13
      else (∃ p, access s r n kind = .ok p) ∨ ∃ code, access s r n kind = .error (.pf code)) ∧
    (s.mode = .prot →
      if kind.writes = true ∧ r.seg ∈ s.nonwritable then access s r n kind = .error .gp0
      else (∃ p, access s r n kind = .ok p) ∨ (∃ code, access s r n kind = .error (.pf code)) ∨
        access s r n kind = .error (if r.seg = .ss then .ss0 else .gp0))

/-- The bytes of an operand (R64): as many as asked for; where the launch state places the bytes of this very request, those; else the bytes at the offsets mod 2^16 or 2^32, and, where the launch state places none of them elsewhere, at the physical address 16 x selector + offset of the Real and Virtual 8086 Mode (R71; log entries 7 and 10). -/
def Obligations.AccessAddresses : Prop :=
  ∀ (s : State) (r : MemRef) (n : Nat) (kind : AccessKind) (p : List Dword), access s r n kind = .ok p →
    p.length = n ∧ (∀ q, placementOf s r n kind = some q → p = q.bytes) ∧
    (placementOf s r n kind = none → ∀ k, ∀ hk : k < p.length, ∃ o : Dword,
      o.toNat = (r.off.toNat + k) % (match r.addrsize with | .s16 => 2 ^ 16 | .s32 => 2 ^ 32) ∧
      p[k] = physicalAddress s r.seg o ∧
      (s.mode ≠ .prot → (∀ l ∈ s.locations, l.covers r.seg o = false) →
        p[k].toNat = (16 * (s.segment r.seg).selector.toNat + o.toNat) % 2 ^ 32))

/-- `Access` may answer a request with any physical addresses: some launch state gives this request these addresses and answers every other request as before (R64; that the state holds `Access` as data is log entry 7). -/
def Obligations.AccessMayAnswerAnyAddresses : Prop :=
  ∀ (s : State) (r : MemRef) (kind : AccessKind) (p bytes : List Dword),
    access s r bytes.length kind = .ok p →
    let t := { s with placements := ⟨r.seg, r.off, some r.addrsize, kind, bytes⟩ :: s.placements }
    access t r bytes.length kind = .ok bytes ∧
    ∀ (r' : MemRef) (n' : Nat) (kind' : AccessKind), (r' ≠ r ∨ n' ≠ bytes.length ∨ kind' ≠ kind) →
      access t r' n' kind' = access s r' n' kind'

/-- A `readwrite` access fails whenever a `read` or a `write` would (R68). -/
def Obligations.ReadWriteFailsWhereReadOrWriteFails : Prop :=
  ∀ (s : State) (r : MemRef) (n : Nat) (kind : AccessKind) (e : Exc), access s r n kind = .error e →
    ∃ e', access s r n .readwrite = .error e'

/-- A load gives back what a store to the same distinct bytes wrote, the lowest address holds bits 7:0, and every other byte is as before (R63, R66, R67, R76). -/
def Obligations.LoadAfterStore : Prop :=
  ∀ (w : Width) (m : Memory) (p : List Dword) (v : BitVec w.bits),
    m.wf = true → p.Nodup → p.length = w.bytes →
      ofBytes w.bits ((m.store p (toBytes w.bytes v)).load p) = v ∧
      ofBytes 8 ((m.store p (toBytes w.bytes v)).load (p.take 1)) = v.extractLsb' 0 8 ∧
      ∀ a : Nat, (∀ q ∈ p, q.toNat ≠ a) → (m.store p (toBytes w.bytes v)).read a = m.read a

/-! ## The step and the run -/

/-- When the bytes at `pc` decode to an instruction, a step is that instruction's meaning, and nothing more (R325). -/
def Obligations.StepRunsDecodedInstruction : Prop :=
  ∀ (s : State) (i : Instr) (rest : List Byte), insideProgram s = true →
    decode s.defaultSize (fetchBytes s) = .ok (i, rest) → step s = exec i s

/-- When `PROGRAM` holds the encoding of an instruction at `pc`, a step is that instruction's meaning (R84, R107, R325). -/
def Obligations.StepRunsEncodedInstruction : Prop :=
  ∀ (s : State) (i : Instr) (rest : List Byte), insideProgram s = true → i.wellFormed s.defaultSize = true →
    fetchBytes s = encode i ++ rest → step s = exec i s

/-- How a run ends where there is no instruction to execute: completed just past `PROGRAM`, refused for bytes that are no instruction (R325), and refused where `pc` is neither inside `PROGRAM` nor just past it, which is the model's choice (log entry 39). What "just past" means for a `PROGRAM` that reaches past the top of the code segment is its choice too (log entry 38). -/
def Obligations.RunEndings : Prop :=
  ∀ (s : State),
    (insideProgram s = false → pastProgram s = true → step s = .fault (.completed s)) ∧
    (insideProgram s = false → pastProgram s = false → step s = .refused .fetchOutsideProgram) ∧
    (∀ e, insideProgram s = true → decode s.defaultSize (fetchBytes s) = .error e →
      step s = .refused (.undecodable e))

/-- Every run ends, within one step more than `PROGRAM` has bytes (R325 item 4), unless `PROGRAM` begins at offset 0 and fills the whole code segment: there the end, reduced as `pc` is, is the start, and the run goes on (log entry 13). -/
def Obligations.RunAlwaysEnds : Prop :=
  ∀ (s t : State), 0 < s.program.start.toNat ∨ s.program.bytes.length < codeSpan s.defaultSize →
    Host.Core.run Sys2Proof.core (s.program.bytes.length + 1) s ≠ .next t

/-- Every step keeps the invariant: memory in canonical form, `PROGRAM` in memory as it was placed, `pc` an offset of the code segment (R27, R84). -/
def Obligations.StepKeepsInvariant : Prop :=
  ∀ (s t : State), Inv s → step s = .next t → Inv t

/-- The state after reset meets the invariant, and `sti_shadow` is 0 (R321). The other reset values are the model's: log entries 1, 2, 4 and 40. -/
def Obligations.ResetMeetsInvariant : Prop :=
  Inv State.reset ∧ State.reset.stiShadow = false

/-- No step changes `MODE`, `DEFAULT_SIZE`, `CPL`, `IOPL`, a segment register, GDTR, IDTR, LDTR, TR, CR0, what `Access` depends on, or `PROGRAM` (R7, R38 to R44, R73, R84, R301). `MODE`, `DEFAULT_SIZE`, `CPL` and `IOPL` as constants are log entry 31; `nonwritable`, `accessRules`, `locations` and `placements` as constants, also of a run that stores into descriptor or page tables, are the model's choice, log entry 37. -/
def Obligations.StepKeepsConstants : Prop :=
  ∀ (s t : State), step s = .next t → SameConstants s t

/-- DF becomes 1 by STD and IF by STI; no instruction clears either (R30, R37, R253, R258). -/
def Obligations.DirectionAndInterruptFlags : Prop :=
  ∀ (i : Instr) (s t : State), exec i s = .next t →
    (t.flags.DF = true ↔ s.flags.DF = true ∨ ∃ p, i = .std p) ∧
    (t.flags.IF = true ↔ s.flags.IF = true ∨ ∃ p, i = .sti p)

/-- STI sets `sti_shadow` and every other instruction that completes clears it, so that no interrupt is recognised at the boundary right after STI and one is recognised after the next instruction if IF is 1 (R256). -/
def Obligations.StiShadowLastsOneInstruction : Prop :=
  ∀ (i : Instr) (s t : State), exec i s = .next t →
    (t.stiShadow = true ↔ ∃ p, i = .sti p) ∧
    (t.interruptible = true ↔ t.flags.IF = true ∧ ¬ ∃ p, i = .sti p)

/-- `sti_shadow` influences no outcome of a step (R256, R291). The two steps start with equally many draws and so draw the same values (log entry 5). -/
def Obligations.StepIgnoresStiShadow : Prop :=
  ∀ (s : State) (b : Bool),
    (∀ t, step s = .next t → step { s with stiShadow := b } = .next t) ∧
    (∀ r, step s = .refused r → step { s with stiShadow := b } = .refused r) ∧
    (∀ e t, step s = .fault (.exception e t) →
      step { s with stiShadow := b } = .fault (.exception e { t with stiShadow := b })) ∧
    (∀ t, step s = .fault (.completed t) →
      step { s with stiShadow := b } = .fault (.completed { t with stiShadow := b }))

/-- Every instruction that completes moves `pc` past its bytes, mod 2^32, or mod 2^16 in 16-bit code; there is no other control transfer (R27, R304). -/
def Obligations.PcAdvancesByLength : Prop :=
  ∀ (i : Instr) (s t : State), exec i s = .next t →
    t.pc.toNat = (s.pc.toNat + instrLength i) % codeSpan s.defaultSize

/-- An exception ends the run with the state unchanged (R300). -/
def Obligations.ExceptionsChangeNothing : Prop :=
  (∀ (i : Instr) (s : State) (f : Fault), exec i s = .fault f → ∃ e, f = .exception e s) ∧
  (∀ (s t : State) (e : Exc), step s = .fault (.exception e t) → t = s)

/-- Every exception has one of three causes: an encoding that is not recognised, the privilege check of STI, or the answer of `Access` to the instruction's one request (R284, R281, R295, R288). -/
def Obligations.ExceptionSources : Prop :=
  ∀ (i : Instr) (s t : State) (e : Exc), exec i s = .fault (.exception e t) →
    (e = .ud ∧ unrecognised i s = true) ∨ (e = .gp0 ∧ stiDenied i s = true) ∨
    ∃ r, request i s = some r ∧ access s r.ref r.bytes r.kind = .error e

/-- Which instruction can raise what in which mode (R286). -/
def Obligations.ExceptionTable : Prop :=
  ∀ (i : Instr) (s t : State) (e : Exc), exec i s = .fault (.exception e t) →
    match s.mode, e with
    | .prot, .gp0 => stiDenied i s = true ∨ (request i s).isSome = true
    | .prot, .ss0 => (∃ r, request i s = some r ∧ r.ref.seg = .ss) ∧ (scasRow i).isNone ∧ (stosRow i).isNone
    | .prot, .pf _ => (request i s).isSome = true
    | .prot, .ud => ∃ q n, tableRow s i = some q ∧ q.rm = .reg n
    | .prot, .int13 => False
    | .real, .ud => unrecognised i s = true
    | .real, .int13 => (request i s).isSome = true ∧ ∀ q, systemRow s i = some q → q.protectedOnly = false
    | .real, .gp0 => False
    | .real, .ss0 => False
    | .real, .pf _ => False
    | .v86, .gp0 => stiDenied i s = true
    | .v86, .pf _ => (request i s).isSome = true ∧ ∀ q, systemRow s i = some q → q.protectedOnly = false
    | .v86, .ud => unrecognised i s = true
    | .v86, .int13 => (request i s).isSome = true ∧ ∀ q, systemRow s i = some q → q.protectedOnly = false
    | .v86, .ss0 => False

/-- An instruction is refused exactly where it would store into `PROGRAM` (R84). A shift or double shift with a count of 0 stores nothing (R142, R222; log entry 14). -/
def Obligations.RefusedExactlyForStoresIntoProgram : Prop :=
  ∀ (i : Instr) (s : State) (r : Refusal), exec i s = .refused r ↔
    r = .storeIntoProgram ∧ countIsZero i s = false ∧
      ∃ q p, request i s = some q ∧ q.kind.writes = true ∧ access s q.ref q.bytes q.kind = .ok p ∧
        hitsProgram s p = true

/-- When `Access` answers an instruction's request with an exception, the instruction raises it and changes nothing (R66, R67, R68, R149, R162, R172, R198, R213, R225, R246, R262, R272). -/
def Obligations.OperandExceptionEndsRun : Prop :=
  ∀ (i : Instr) (s : State) (r : Request) (e : Exc), request i s = some r →
    access s r.ref r.bytes r.kind = .error e → exec i s = .fault (.exception e s)

/-- Interrupt 6: SGDT and SIDT with a register operand in every mode, every form of SLDT and STR outside of Protected Mode, and nothing else (R284, R109). -/
def Obligations.UnrecognisedEncodingsRaiseUD : Prop :=
  (∀ (p : Prefixes) (n : BitVec 3) (s : State), exec (.sgdt p (.reg n)) s = .fault (.exception .ud s)) ∧
  (∀ (p : Prefixes) (n : BitVec 3) (s : State), exec (.sidt p (.reg n)) s = .fault (.exception .ud s)) ∧
  (∀ (p : Prefixes) (rm : RM) (s : State), s.mode ≠ .prot → exec (.sldt p rm) s = .fault (.exception .ud s)) ∧
  (∀ (p : Prefixes) (rm : RM) (s : State), s.mode ≠ .prot → exec (.str p rm) s = .fault (.exception .ud s)) ∧
  (∀ (i : Instr) (s t : State), exec i s = .fault (.exception .ud t) → unrecognised i s = true)

/-! ## The instructions -/

/-- SAHF loads SF, ZF, AF, PF and CF from AH bits 7, 6, 4, 2 and 0 and changes nothing else, in any mode (R130, R131). -/
def Obligations.SahfLoadsFlags : Prop :=
  ∀ (p : Prefixes) (s : State), ∃ t, exec (.sahf p) s = .next t ∧
    t.flags = { s.flags with
      SF := (s.x 0).getLsbD 15, ZF := (s.x 0).getLsbD 14, AF := (s.x 0).getLsbD 12, PF := (s.x 0).getLsbD 10,
      CF := (s.x 0).getLsbD 8 } ∧
    encodeBody (.sahf p) = [0x9E#8] ∧ SameRegs s t ∧ SameMemory s t ∧ t.draws = s.draws ∧ Completes (.sahf p) s t

/-- STC sets CF and changes no other flag, in any mode (R250). -/
def Obligations.StcSetsCarry : Prop :=
  ∀ (p : Prefixes) (s : State), ∃ t, exec (.stc p) s = .next t ∧ t.flags = { s.flags with CF := true } ∧
    encodeBody (.stc p) = [0xF9#8] ∧ SameRegs s t ∧ SameMemory s t ∧ t.draws = s.draws ∧ Completes (.stc p) s t

/-- STD sets DF and changes no other flag, in any mode (R252). -/
def Obligations.StdSetsDirection : Prop :=
  ∀ (p : Prefixes) (s : State), ∃ t, exec (.std p) s = .next t ∧ t.flags = { s.flags with DF := true } ∧
    encodeBody (.std p) = [0xFD#8] ∧ SameRegs s t ∧ SameMemory s t ∧ t.draws = s.draws ∧ Completes (.std p) s t

/-- STI sets IF and `sti_shadow` where its privilege check passes, and raises `GP(0)` with nothing changed where it fails: in Protected Mode when CPL is greater than IOPL, in Virtual 8086 Mode when IOPL is below 3 (R255, R257). The two clauses about Virtual 8086 Mode follow the spec's decision D22 against the source's "None": log entry 23. -/
def Obligations.StiByPrivilege : Prop :=
  ∀ (p : Prefixes) (s : State),
    ((s.mode = .prot → s.cpl.toNat ≤ s.iopl.toNat) → (s.mode = .v86 → s.iopl = 3) →
      ∃ t, exec (.sti p) s = .next t ∧ t.flags = { s.flags with IF := true } ∧ t.stiShadow = true ∧
        t.pc.toNat = (s.pc.toNat + instrLength (.sti p)) % codeSpan s.defaultSize ∧
        SameRegs s t ∧ SameMemory s t ∧ t.draws = s.draws ∧ SameConstants s t) ∧
    (s.mode = .prot → s.iopl.toNat < s.cpl.toNat → exec (.sti p) s = .fault (.exception .gp0 s)) ∧
    (s.mode = .v86 → s.iopl.toNat < 3 → exec (.sti p) s = .fault (.exception .gp0 s)) ∧
    encodeBody (.sti p) = [0xFB#8]

/-- SUB and SBB, every row: with the operands accessible the destination receives `DEST - SRC - borrow` mod 2^n, the six flags are those of the subtraction, and nothing else changes (R160, R161, R270, R271, R34). The borrow is CF for SBB and 0 for SUB; a byte immediate of 83 is sign-extended (`subRow`). -/
def Obligations.SubtractionCompletes : Prop :=
  ∀ (i : Instr) (q : SubRow) (s : State) (pl : Place) (b : BitVec q.w.bits),
    subRow i = some q → s.mem.wf = true →
    operandPlace q.pre q.dest q.w.bytes .readwrite s = .ok pl → q.source s = .ok b → storable s pl = true →
    let a := readPlace q.w pl s
    let c := match q.op with | .sub => false | .sbb => s.flags.CF
    let r := BitVec.ofInt q.w.bits ((a.toNat : Int) - b.toNat - c.toNat)
    ∃ t, exec i s = .next t ∧ Holds q.w pl r s t ∧ SubFlagsRule a b c r s.flags t.flags ∧ t.draws = s.draws ∧
      Completes i s t

/-- SAL, SHL, SAR and SHR with a count of 0 mod 32: the operand and every flag but OF are as before; nothing is said of OF (R146). That the flags other than OF stay is the spec's decision D17 (log entry 25); that a memory operand inside `PROGRAM` is no store and not refused is the model's reading of R84 and R142 (log entry 14). -/
def Obligations.ShiftByZeroKeepsOperand : Prop :=
  ∀ (i : Instr) (q : ShiftRow) (s : State) (pl : Place),
    shiftRow i = some q → operandPlace q.pre q.rm q.w.bytes .readwrite s = .ok pl → shiftCount q.count s = 0 →
    ∃ t, exec i s = .next t ∧ SameRegs s t ∧ SameMemory s t ∧ t.flags = { s.flags with OF := t.flags.OF } ∧
      Completes i s t

/-- SAL, SHL, SAR and SHR with a count from 1 to 31: the result and CF in closed form, SF, ZF and PF of the result, OF by the instruction for a single shift; nothing is said of AF, nor of OF for a multiple shift (R141, R143, R144, R145, R147, R148, R150, R151, R152). -/
def Obligations.ShiftCompletes : Prop :=
  ∀ (i : Instr) (q : ShiftRow) (s : State) (pl : Place),
    shiftRow i = some q → s.mem.wf = true → operandPlace q.pre q.rm q.w.bytes .readwrite s = .ok pl →
    storable s pl = true → shiftCount q.count s ≠ 0 →
    let a := readPlace q.w pl s
    let c := shiftCount q.count s
    ∃ t, exec i s = .next t ∧ Holds q.w pl (shiftResultRule q.op a c) s t ∧
      ResultFlagsRule (shiftResultRule q.op a c) s.flags t.flags ∧ t.flags.CF = shiftCarryRule q.op a c ∧
      (c = 1 → t.flags.OF = shiftOverflowRule q.op a) ∧ Completes i s t

/-- SHLD and SHRD with a count of 0 mod 32 write no register, no memory byte and no flag; the access check is still made (R222). The access check is the spec's decision D17 (log entry 25); that a memory operand inside `PROGRAM` is no store and not refused is the model's reading of R84 and R222 (log entry 14). -/
def Obligations.DoubleShiftByZeroDoesNothing : Prop :=
  ∀ (i : Instr) (q : DoubleRow) (s : State),
    doubleRow i = some q → shiftCount q.count s = 0 →
    (∀ pl, operandPlace q.pre q.rm q.w.bytes .readwrite s = .ok pl →
      ∃ t, exec i s = .next t ∧ SameRegs s t ∧ SameMemory s t ∧ t.flags = s.flags ∧ t.draws = s.draws ∧
        Completes i s t) ∧
    (∀ e, operandPlace q.pre q.rm q.w.bytes .readwrite s = .error e → exec i s = .fault (.exception e s))

/-- SHLD and SHRD with a count below the operand width: the result and CF in closed form, SF, ZF and PF of the result, the `reg` register as before where it is not the destination; nothing is said of AF and OF (R220, R221, R224, R226, R230). -/
def Obligations.DoubleShiftCompletes : Prop :=
  ∀ (i : Instr) (q : DoubleRow) (s : State) (pl : Place),
    doubleRow i = some q → s.mem.wf = true → operandPlace q.pre q.rm q.w.bytes .readwrite s = .ok pl →
    storable s pl = true → 0 < shiftCount q.count s → shiftCount q.count s < q.w.bits →
    let a := readPlace q.w pl s
    let b := readReg q.w q.reg s
    let k := shiftCount q.count s
    let r := BitVec.ofNat q.w.bits (doubleResultRule q.op a b k)
    ∃ t, exec i s = .next t ∧ Holds q.w pl r s t ∧ ResultFlagsRule r s.flags t.flags ∧
      t.flags.CF = doubleCarryRule q.op a k ∧ Completes i s t

/-- SHLD and SHRD with a count of the operand width or more, which happens for 16-bit operands only: some value is written to the operand, DF and IF stay, nothing is said of the six other flags (R223). -/
def Obligations.DoubleShiftByTooMuch : Prop :=
  ∀ (i : Instr) (q : DoubleRow) (s : State) (pl : Place),
    doubleRow i = some q → s.mem.wf = true → operandPlace q.pre q.rm q.w.bytes .readwrite s = .ok pl →
    storable s pl = true → q.w.bits ≤ shiftCount q.count s →
    q.w = .w16 ∧
    ∃ t v, exec i s = .next t ∧ Holds q.w pl v s t ∧ t.flags.DF = s.flags.DF ∧ t.flags.IF = s.flags.IF ∧
      Completes i s t

/-- The sixteen conditions and their opcodes (R181). -/
def Obligations.ConditionTable : Prop :=
  (∀ f : Flags,
    Cond.holds f .o = f.OF ∧ Cond.holds f .no = !f.OF ∧ Cond.holds f .b = f.CF ∧ Cond.holds f .ae = !f.CF ∧
    Cond.holds f .e = f.ZF ∧ Cond.holds f .ne = !f.ZF ∧
    (Cond.holds f .be = true ↔ f.CF = true ∨ f.ZF = true) ∧
    (Cond.holds f .a = true ↔ f.CF = false ∧ f.ZF = false) ∧
    Cond.holds f .s = f.SF ∧ Cond.holds f .ns = !f.SF ∧ Cond.holds f .p = f.PF ∧ Cond.holds f .np = !f.PF ∧
    (Cond.holds f .l = true ↔ f.SF ≠ f.OF) ∧ (Cond.holds f .ge = true ↔ f.SF = f.OF) ∧
    (Cond.holds f .le = true ↔ f.ZF = true ∨ f.SF ≠ f.OF) ∧
    (Cond.holds f .g = true ↔ f.ZF = false ∧ f.SF = f.OF)) ∧
  (∀ (f : Flags) (c d : Cond), (Cond.code c).getLsbD 0 = false → Cond.code d = Cond.code c + 1 →
    Cond.holds f d = !Cond.holds f c) ∧
  (∀ (i : Instr) (q : SetRow), setRow i = some q →
    encodeBody i = [0x0F, 0x90 + Cond.code q.cond] ++ encodeRM 0 q.rm)

/-- SETcc, all thirty rows: the byte 01 where the condition holds and 00 where it does not, to a byte register or a byte of memory; no flag changes (R180, R181). -/
def Obligations.SetccCompletes : Prop :=
  ∀ (i : Instr) (q : SetRow) (s : State) (pl : Place),
    setRow i = some q → s.mem.wf = true → operandPlace q.pre q.rm 1 .write s = .ok pl → storable s pl = true →
    ∃ t, exec i s = .next t ∧ Holds .w8 pl (if Cond.holds s.flags q.cond = true then 1 else 0) s t ∧
      t.flags = s.flags ∧ t.draws = s.draws ∧ Completes i s t

/-- SGDT and SIDT store the six bytes of the register's image, LIMIT then BASE; byte 5 is BASE[31:24] with a 32-bit operand size and some byte with a 16-bit one (R210, R211, R212). -/
def Obligations.DescriptorTableStoreCompletes : Prop :=
  ∀ (i : Instr) (q : TableRow) (m : MemOperand) (s : State) (p : List Dword),
    tableRow s i = some q → q.rm = .mem m → s.mem.wf = true →
    access s (memRef q.pre m s) 6 .write = .ok p → hitsProgram s p = false →
    ∃ t spare, exec i s = .next t ∧ SameRegs s t ∧
      BytesStored p (imageByte q.table (q.pre.operandSize s.defaultSize) spare) s t ∧ p.length = 6 ∧
      t.flags = s.flags ∧ Completes i s t

/-- SLDT and STR in Protected Mode and SMSW in every mode, to a register: bits 15:0 receive the value, bits 31:16 stay with a 16-bit operand size; nothing is said of them with a 32-bit one (R240, R243, R245, R265). -/
def Obligations.SystemWordToRegister : Prop :=
  ∀ (i : Instr) (q : SystemRow) (n : BitVec 3) (s : State),
    systemRow s i = some q → q.rm = .reg n → (q.protectedOnly = true → s.mode = .prot) →
    ∃ t, exec i s = .next t ∧ (t.x n).extractLsb' 0 16 = q.value ∧
      (q.pre.operandSize s.defaultSize = .s16 → (t.x n).extractLsb' 16 16 = (s.x n).extractLsb' 16 16) ∧
      (∀ k, k ≠ n → t.x k = s.x k) ∧ SameMemory s t ∧ t.flags = s.flags ∧ Completes i s t

/-- SLDT and STR in Protected Mode and SMSW in every mode, to memory: two bytes, whatever the operand size is (R240, R242, R243, R245, R265). -/
def Obligations.SystemWordToMemory : Prop :=
  ∀ (i : Instr) (q : SystemRow) (m : MemOperand) (s : State) (p : List Dword),
    systemRow s i = some q → q.rm = .mem m → (q.protectedOnly = true → s.mode = .prot) → s.mem.wf = true →
    access s (memRef q.pre m s) 2 .write = .ok p → hitsProgram s p = false →
    ∃ t, exec i s = .next t ∧ SameRegs s t ∧ BytesStored p (fun k => q.value.extractLsb' (8 * k) 8) s t ∧
      p.length = 2 ∧ t.flags = s.flags ∧ t.draws = s.draws ∧ Completes i s t

/-- SCAS, all six rows: the operand stands at ES:DI or ES:EDI by the address size, whatever override comes before; the flags are those of accumulator minus memory, the index moved by the operand's bytes in the direction of DF, and nothing else (R170, R171, R37, R34). -/
def Obligations.ScasCompletes : Prop :=
  ∀ (i : Instr) (q : StringRow) (s : State) (p : List Dword),
    scasRow i = some q →
    access s (stringRef (q.pre.addressSize s.defaultSize) s) q.w.bytes .read = .ok p →
    let a := readReg q.w 0 s
    let b := ofBytes q.w.bits (s.mem.load p)
    StringOperandAt (q.pre.addressSize s.defaultSize) s (stringRef (q.pre.addressSize s.defaultSize) s) ∧
    ∃ t, exec i s = .next t ∧
      SubFlagsRule a b false (BitVec.ofInt q.w.bits ((a.toNat : Int) - b.toNat)) s.flags t.flags ∧
      IndexStepped (q.pre.addressSize s.defaultSize) q.w.bytes s t ∧ SameMemory s t ∧ t.draws = s.draws ∧
      Completes i s t

/-- STOS, all six rows: the operand stands at ES:DI or ES:EDI by the address size, whatever override comes before; it receives the accumulator's bytes, the index moved by the operand's bytes in the direction of DF, and nothing else (R260, R261, R37). -/
def Obligations.StosCompletes : Prop :=
  ∀ (i : Instr) (q : StringRow) (s : State) (p : List Dword),
    stosRow i = some q → s.mem.wf = true →
    access s (stringRef (q.pre.addressSize s.defaultSize) s) q.w.bytes .write = .ok p →
    hitsProgram s p = false →
    StringOperandAt (q.pre.addressSize s.defaultSize) s (stringRef (q.pre.addressSize s.defaultSize) s) ∧
    ∃ t, exec i s = .next t ∧ BytesStored p (fun k => (readReg q.w 0 s).extractLsb' (8 * k) 8) s t ∧
      IndexStepped (q.pre.addressSize s.defaultSize) q.w.bytes s t ∧ t.flags = s.flags ∧ t.draws = s.draws ∧
      Completes i s t

end
end

