-- ==== Sys2Proof/Laws/Decode.lean ====
section
/-! SUPPORT. Laws of the decoder's and the encoder's parts: bytes and values, fields, the ModRM operand, the prefixes. -/

namespace Sys2Proof

/-! ## Bytes and values -/

@[simp] theorem length_natToBytes (k v : Nat) : (natToBytes k v).length = k := by
  induction k generalizing v with
  | zero => rfl
  | succ k ih => simp [natToBytes, ih]

@[simp] theorem length_toBytes (k : Nat) {n : Nat} (v : BitVec n) : (toBytes k v).length = k := by
  simp [toBytes]

/-- The bytes of a number give it back, as far as they reach. -/
theorem bytesToNat_natToBytes (k v : Nat) : bytesToNat (natToBytes k v) = v % 256 ^ k := by
  induction k generalizing v with
  | zero => simp [natToBytes, bytesToNat, Nat.mod_one]
  | succ k ih =>
    simp only [natToBytes, bytesToNat, ih, BitVec.toNat_ofNat]
    show v % 256 + 256 * (v / 256 % 256 ^ k) = _
    rw [pow_succ' 256 k, Nat.mod_mul]

/-- The bytes of a value give it back (R63). -/
theorem ofBytes_toBytes (k : Nat) {n : Nat} (hn : n ≤ 8 * k) (v : BitVec n) : ofBytes n (toBytes k v) = v := by
  apply BitVec.eq_of_toNat_eq
  have h1 : v.toNat < 256 ^ k := by
    have h2 : (256 : Nat) ^ k = 2 ^ (8 * k) := by
      rw [show (256 : Nat) = 2 ^ 8 from rfl, ← Nat.pow_mul]
    rw [h2]
    exact lt_of_lt_of_le v.isLt (Nat.pow_le_pow_right (by omega) hn)
  simp [ofBytes, toBytes, bytesToNat_natToBytes, Nat.mod_eq_of_lt h1]

/-- Byte `k` of a value is its bits 8k+7 to 8k (R63, R66). -/
theorem getElem_natToBytes (m v k : Nat) (hk : k < m) :
    (natToBytes m v)[k]'(by simpa using hk) = BitVec.ofNat 8 (v / 256 ^ k) := by
  induction m generalizing v k with
  | zero => omega
  | succ m ih =>
    cases k with
    | zero => simp [natToBytes]
    | succ k =>
      simp only [natToBytes, List.getElem_cons_succ]
      rw [ih (v / 256) k (by omega), Nat.div_div_eq_div_mul, pow_succ']

/-- Byte `k` of a value is its bits 8k+7 to 8k (R63, R67). -/
theorem getElem_toBytes (m : Nat) {n : Nat} (v : BitVec n) (k : Nat) (hk : k < m) :
    (toBytes m v)[k]'(by simpa using hk) = v.extractLsb' (8 * k) 8 := by
  simp only [toBytes]
  rw [getElem_natToBytes m v.toNat k hk]
  apply BitVec.eq_of_toNat_eq
  have h2 : (256 : Nat) ^ k = 2 ^ (8 * k) := by
    rw [show (256 : Nat) = 2 ^ 8 from rfl, ← Nat.pow_mul]
  simp [BitVec.extractLsb'_toNat, Nat.shiftRight_eq_div_pow, h2]

/-! ## Fields -/

/-- Taking as many bytes as stand first gives them and the rest. -/
theorem takeBytes_append (l rest : List Byte) : takeBytes l.length (l ++ rest) = .ok (l, rest) := by
  induction l with
  | nil => cases rest <;> rfl
  | cons b l ih => simp [takeBytes, ih]

/-- What taking bytes can answer: a part of the bytes, of the length asked for. -/
theorem takeBytes_ok {k : Nat} {bs l rest : List Byte} (h : takeBytes k bs = .ok (l, rest)) :
    bs = l ++ rest ∧ l.length = k := by
  induction k generalizing bs l with
  | zero => simp only [takeBytes] at h; cases h; simp
  | succ k ih =>
    cases bs with
    | nil => simp [takeBytes] at h
    | cons b bs =>
      simp only [takeBytes] at h
      split at h
      · cases h
      · rename_i l' rest' h'
        cases h
        obtain ⟨rfl, hl⟩ := ih h'
        simp [hl]

/-- A field that was encoded decodes to its value. -/
theorem decodeField_append (k n : Nat) (hk : n / 8 = k) (hn : n ≤ 8 * k) (v : BitVec n) (rest : List Byte) :
    decodeField n (toBytes k v ++ rest) = .ok (v, rest) := by
  have h := takeBytes_append (toBytes k v) rest
  rw [length_toBytes] at h
  simp [decodeField, hk, h, ofBytes_toBytes k hn]

theorem decodeField8 (v : Byte) (rest : List Byte) : decodeField 8 (v :: rest) = .ok (v, rest) := by
  simp [decodeField, takeBytes, ofBytes, bytesToNat]

theorem toBytes_one (v : Byte) : toBytes 1 v = [v] := by
  simp [toBytes, natToBytes]

/-- A displacement that was encoded decodes to itself. -/
theorem decodeDisp_append (k n : Nat) (hk : n / 8 = k) (hn : n ≤ 8 * k) (d : Disp n) (rest : List Byte) :
    decodeDisp n d.mod (d.encode ++ rest) = .ok (d, rest) := by
  cases d with
  | none => simp [Disp.mod, Disp.encode, decodeDisp]
  | d8 v => simp [Disp.mod, Disp.encode, decodeDisp, decodeField8]
  | full v => simp [Disp.mod, Disp.encode, decodeDisp, hk, decodeField_append k n hk hn]

/-! ## The ModRM operand -/

@[simp] theorem packByte_hi (a : BitVec 2) (b c : BitVec 3) : (packByte a b c).extractLsb' 6 2 = a := by
  revert a b c; decide

@[simp] theorem packByte_mid (a : BitVec 2) (b c : BitVec 3) : (packByte a b c).extractLsb' 3 3 = b := by
  revert a b c; decide

@[simp] theorem packByte_lo (a : BitVec 2) (b c : BitVec 3) : (packByte a b c).extractLsb' 0 3 = c := by
  revert a b c; decide

theorem Base16.ofBits_bits (b : Base16) : Base16.ofBits b.bits = b := by cases b <;> rfl

theorem Disp.mod_ne_three {n : Nat} (d : Disp n) : d.mod ≠ 3#2 := by cases d <;> simp [Disp.mod]

theorem Disp.mod_eq_zero {n : Nat} (d : Disp n) : d.mod = 0#2 ↔ d = .none := by
  cases d <;> simp [Disp.mod]

/-- An index that was encoded decodes to itself (R100). -/
theorem Index.ofBits_bits (i : Index) (h : i.wellFormed = true) : Index.ofBits i.bits i.ss = .ok i := by
  cases i with
  | none => simp [Index.ofBits, Index.bits, Index.ss]
  | scaled i ss =>
    have : i ≠ 4#3 := by simpa [Index.wellFormed] using h
    simp [Index.ofBits, Index.bits, Index.ss, this]

/-- A ModRM operand that was encoded decodes to itself, with its `reg` field (R94, R98, R99, R100). -/
theorem decodeRM_encodeRM (z : Size) (reg : BitVec 3) (rm : RM) (h : rm.wellFormed z = true) (rest : List Byte) :
    decodeRM z (encodeRM reg rm ++ rest) = .ok (rm, reg, rest) := by
  cases rm with
  | reg n => simp [encodeRM, decodeRM]
  | mem m =>
    cases m with
    | a16 m =>
      cases z with
      | s32 => simp [RM.wellFormed] at h
      | s16 =>
        cases m with
        | direct v => simp [encodeRM, decodeRM, decodeMem, decodeMem16, decodeField_append 2 16]
        | based b d =>
          have hb : ¬ (d.mod = 0#2 ∧ b.bits = 6#3) := by
            rw [Disp.mod_eq_zero]
            rintro ⟨rfl, hb⟩
            cases b <;> simp [Base16.bits, RM.wellFormed, Mem16.wellFormed] at hb h
          simp [encodeRM, decodeRM, decodeMem, decodeMem16, Disp.mod_ne_three, hb, decodeDisp_append 2 16,
            Base16.ofBits_bits]
    | a32 m =>
      cases z with
      | s16 => simp [RM.wellFormed] at h
      | s32 =>
        cases m with
        | direct v => simp [encodeRM, decodeRM, decodeMem, decodeMem32, decodeField_append 4 32]
        | based b d =>
          simp only [RM.wellFormed, Mem32.wellFormed, beq_self_eq_true, Bool.true_and, Bool.and_eq_true, bne_iff_ne,
            ne_eq, Bool.not_eq_true', Bool.and_eq_false_iff, beq_eq_false_iff_ne] at h
          have hb : ¬ (d.mod = 0#2 ∧ b = 5#3) := by
            rw [Disp.mod_eq_zero]
            rintro ⟨rfl, rfl⟩
            simp at h
          have h4 : ¬ b = 4#3 := h.1
          simp [encodeRM, decodeRM, decodeMem, decodeMem32, Disp.mod_ne_three, h4, hb, decodeDisp_append 4 32]
        | sib b i d =>
          simp only [RM.wellFormed, Mem32.wellFormed, beq_self_eq_true, Bool.true_and, Bool.and_eq_true,
            Bool.not_eq_true', Bool.and_eq_false_iff, beq_eq_false_iff_ne] at h
          have hb : ¬ (d.mod = 0#2 ∧ b = 5#3) := by
            rw [Disp.mod_eq_zero]
            rintro ⟨rfl, rfl⟩
            simp at h
          simp [encodeRM, decodeRM, decodeMem, decodeMem32, decodeSib, Disp.mod_ne_three, hb,
            decodeDisp_append 4 32, Index.ofBits_bits i h.1]
        | sibNoBase i v =>
          have hi : i.wellFormed = true := by simpa [RM.wellFormed, Mem32.wellFormed] using h
          simp [encodeRM, decodeRM, decodeMem, decodeMem32, decodeSib, decodeField_append 4 32,
            Index.ofBits_bits i hi]

/-! ## Prefixes -/

/-- The prefixes that were encoded decode to themselves before a byte that is no prefix (R92). -/
theorem decodePrefixes_encodePrefixes (p : Prefixes) (b : Byte) (hb : prefixByte b = none) (rest : List Byte) :
    decodePrefixes Prefixes.none (encodePrefixes p ++ b :: rest) = .ok (p, b :: rest) := by
  obtain ⟨o, a, g⟩ := p
  have h1 : prefixByte 0x66#8 = some .opsize := rfl
  have h2 : prefixByte 0x67#8 = some .addrsize := rfl
  have h3 : prefixByte 0x26#8 = some (.seg .es) := rfl
  have h4 : prefixByte 0x2E#8 = some (.seg .cs) := rfl
  have h5 : prefixByte 0x36#8 = some (.seg .ss) := rfl
  have h6 : prefixByte 0x3E#8 = some (.seg .ds) := rfl
  have h7 : prefixByte 0x64#8 = some (.seg .fs) := rfl
  have h8 : prefixByte 0x65#8 = some (.seg .gs) := rfl
  cases o <;> cases a <;> rcases g with _ | g <;> (try cases g) <;>
    simp [encodePrefixes, decodePrefixes, Prefixes.none, h1, h2, h3, h4, h5, h6, h7, h8, hb]

/-- The encoding of a body begins with a byte that is no prefix (R105, R106). -/
theorem encodeBody_head (i : Instr) : ∃ b rest, encodeBody i = b :: rest ∧ prefixByte b = none := by
  cases i <;> exact ⟨_, _, rfl, rfl⟩

end Sys2Proof
end

