-- ==== Sys2Proof/Laws/State.lean ====
section
/-! SUPPORT. One lemma for each field under each update of the state, true by `rfl`, so that no later proof unfolds a record update. -/

namespace Sys2Proof.Machine

open Sys2Proof

/-! ## `setX` -/

@[simp] theorem setX_regs (s : State) (i : BitVec 3) (v : Dword) : (s.setX i v).regs = s.regs.set i.toNat v i.isLt := rfl
@[simp] theorem setX_pc (s : State) (i : BitVec 3) (v : Dword) : (s.setX i v).pc = s.pc := rfl
@[simp] theorem setX_flags (s : State) (i : BitVec 3) (v : Dword) : (s.setX i v).flags = s.flags := rfl
@[simp] theorem setX_mode (s : State) (i : BitVec 3) (v : Dword) : (s.setX i v).mode = s.mode := rfl
@[simp] theorem setX_defaultSize (s : State) (i : BitVec 3) (v : Dword) : (s.setX i v).defaultSize = s.defaultSize := rfl
@[simp] theorem setX_cpl (s : State) (i : BitVec 3) (v : Dword) : (s.setX i v).cpl = s.cpl := rfl
@[simp] theorem setX_iopl (s : State) (i : BitVec 3) (v : Dword) : (s.setX i v).iopl = s.iopl := rfl
@[simp] theorem setX_segs (s : State) (i : BitVec 3) (v : Dword) : (s.setX i v).segs = s.segs := rfl
@[simp] theorem setX_gdtr (s : State) (i : BitVec 3) (v : Dword) : (s.setX i v).gdtr = s.gdtr := rfl
@[simp] theorem setX_idtr (s : State) (i : BitVec 3) (v : Dword) : (s.setX i v).idtr = s.idtr := rfl
@[simp] theorem setX_ldtr (s : State) (i : BitVec 3) (v : Dword) : (s.setX i v).ldtr = s.ldtr := rfl
@[simp] theorem setX_tr (s : State) (i : BitVec 3) (v : Dword) : (s.setX i v).tr = s.tr := rfl
@[simp] theorem setX_cr0 (s : State) (i : BitVec 3) (v : Dword) : (s.setX i v).cr0 = s.cr0 := rfl
@[simp] theorem setX_stiShadow (s : State) (i : BitVec 3) (v : Dword) : (s.setX i v).stiShadow = s.stiShadow := rfl
@[simp] theorem setX_nonwritable (s : State) (i : BitVec 3) (v : Dword) : (s.setX i v).nonwritable = s.nonwritable := rfl
@[simp] theorem setX_accessRules (s : State) (i : BitVec 3) (v : Dword) : (s.setX i v).accessRules = s.accessRules := rfl
@[simp] theorem setX_locations (s : State) (i : BitVec 3) (v : Dword) : (s.setX i v).locations = s.locations := rfl
@[simp] theorem setX_placements (s : State) (i : BitVec 3) (v : Dword) : (s.setX i v).placements = s.placements := rfl
@[simp] theorem setX_mem (s : State) (i : BitVec 3) (v : Dword) : (s.setX i v).mem = s.mem := rfl
@[simp] theorem setX_program (s : State) (i : BitVec 3) (v : Dword) : (s.setX i v).program = s.program := rfl
@[simp] theorem setX_draws (s : State) (i : BitVec 3) (v : Dword) : (s.setX i v).draws = s.draws := rfl

/-! ## `withFlags` -/

@[simp] theorem withFlags_regs (s : State) (f : Flags) : (s.withFlags f).regs = s.regs := rfl
@[simp] theorem withFlags_pc (s : State) (f : Flags) : (s.withFlags f).pc = s.pc := rfl
@[simp] theorem withFlags_flags (s : State) (f : Flags) : (s.withFlags f).flags = f := rfl
@[simp] theorem withFlags_mode (s : State) (f : Flags) : (s.withFlags f).mode = s.mode := rfl
@[simp] theorem withFlags_defaultSize (s : State) (f : Flags) : (s.withFlags f).defaultSize = s.defaultSize := rfl
@[simp] theorem withFlags_cpl (s : State) (f : Flags) : (s.withFlags f).cpl = s.cpl := rfl
@[simp] theorem withFlags_iopl (s : State) (f : Flags) : (s.withFlags f).iopl = s.iopl := rfl
@[simp] theorem withFlags_segs (s : State) (f : Flags) : (s.withFlags f).segs = s.segs := rfl
@[simp] theorem withFlags_gdtr (s : State) (f : Flags) : (s.withFlags f).gdtr = s.gdtr := rfl
@[simp] theorem withFlags_idtr (s : State) (f : Flags) : (s.withFlags f).idtr = s.idtr := rfl
@[simp] theorem withFlags_ldtr (s : State) (f : Flags) : (s.withFlags f).ldtr = s.ldtr := rfl
@[simp] theorem withFlags_tr (s : State) (f : Flags) : (s.withFlags f).tr = s.tr := rfl
@[simp] theorem withFlags_cr0 (s : State) (f : Flags) : (s.withFlags f).cr0 = s.cr0 := rfl
@[simp] theorem withFlags_stiShadow (s : State) (f : Flags) : (s.withFlags f).stiShadow = s.stiShadow := rfl
@[simp] theorem withFlags_nonwritable (s : State) (f : Flags) : (s.withFlags f).nonwritable = s.nonwritable := rfl
@[simp] theorem withFlags_accessRules (s : State) (f : Flags) : (s.withFlags f).accessRules = s.accessRules := rfl
@[simp] theorem withFlags_locations (s : State) (f : Flags) : (s.withFlags f).locations = s.locations := rfl
@[simp] theorem withFlags_placements (s : State) (f : Flags) : (s.withFlags f).placements = s.placements := rfl
@[simp] theorem withFlags_mem (s : State) (f : Flags) : (s.withFlags f).mem = s.mem := rfl
@[simp] theorem withFlags_program (s : State) (f : Flags) : (s.withFlags f).program = s.program := rfl
@[simp] theorem withFlags_draws (s : State) (f : Flags) : (s.withFlags f).draws = s.draws := rfl

/-! ## `withMem` -/

@[simp] theorem withMem_regs (s : State) (m : Memory) : (s.withMem m).regs = s.regs := rfl
@[simp] theorem withMem_pc (s : State) (m : Memory) : (s.withMem m).pc = s.pc := rfl
@[simp] theorem withMem_flags (s : State) (m : Memory) : (s.withMem m).flags = s.flags := rfl
@[simp] theorem withMem_mode (s : State) (m : Memory) : (s.withMem m).mode = s.mode := rfl
@[simp] theorem withMem_defaultSize (s : State) (m : Memory) : (s.withMem m).defaultSize = s.defaultSize := rfl
@[simp] theorem withMem_cpl (s : State) (m : Memory) : (s.withMem m).cpl = s.cpl := rfl
@[simp] theorem withMem_iopl (s : State) (m : Memory) : (s.withMem m).iopl = s.iopl := rfl
@[simp] theorem withMem_segs (s : State) (m : Memory) : (s.withMem m).segs = s.segs := rfl
@[simp] theorem withMem_gdtr (s : State) (m : Memory) : (s.withMem m).gdtr = s.gdtr := rfl
@[simp] theorem withMem_idtr (s : State) (m : Memory) : (s.withMem m).idtr = s.idtr := rfl
@[simp] theorem withMem_ldtr (s : State) (m : Memory) : (s.withMem m).ldtr = s.ldtr := rfl
@[simp] theorem withMem_tr (s : State) (m : Memory) : (s.withMem m).tr = s.tr := rfl
@[simp] theorem withMem_cr0 (s : State) (m : Memory) : (s.withMem m).cr0 = s.cr0 := rfl
@[simp] theorem withMem_stiShadow (s : State) (m : Memory) : (s.withMem m).stiShadow = s.stiShadow := rfl
@[simp] theorem withMem_nonwritable (s : State) (m : Memory) : (s.withMem m).nonwritable = s.nonwritable := rfl
@[simp] theorem withMem_accessRules (s : State) (m : Memory) : (s.withMem m).accessRules = s.accessRules := rfl
@[simp] theorem withMem_locations (s : State) (m : Memory) : (s.withMem m).locations = s.locations := rfl
@[simp] theorem withMem_placements (s : State) (m : Memory) : (s.withMem m).placements = s.placements := rfl
@[simp] theorem withMem_mem (s : State) (m : Memory) : (s.withMem m).mem = m := rfl
@[simp] theorem withMem_program (s : State) (m : Memory) : (s.withMem m).program = s.program := rfl
@[simp] theorem withMem_draws (s : State) (m : Memory) : (s.withMem m).draws = s.draws := rfl

/-! ## `drawn` -/

@[simp] theorem drawn_regs (s : State) : s.drawn.regs = s.regs := rfl
@[simp] theorem drawn_pc (s : State) : s.drawn.pc = s.pc := rfl
@[simp] theorem drawn_flags (s : State) : s.drawn.flags = s.flags := rfl
@[simp] theorem drawn_mode (s : State) : s.drawn.mode = s.mode := rfl
@[simp] theorem drawn_defaultSize (s : State) : s.drawn.defaultSize = s.defaultSize := rfl
@[simp] theorem drawn_cpl (s : State) : s.drawn.cpl = s.cpl := rfl
@[simp] theorem drawn_iopl (s : State) : s.drawn.iopl = s.iopl := rfl
@[simp] theorem drawn_segs (s : State) : s.drawn.segs = s.segs := rfl
@[simp] theorem drawn_gdtr (s : State) : s.drawn.gdtr = s.gdtr := rfl
@[simp] theorem drawn_idtr (s : State) : s.drawn.idtr = s.idtr := rfl
@[simp] theorem drawn_ldtr (s : State) : s.drawn.ldtr = s.ldtr := rfl
@[simp] theorem drawn_tr (s : State) : s.drawn.tr = s.tr := rfl
@[simp] theorem drawn_cr0 (s : State) : s.drawn.cr0 = s.cr0 := rfl
@[simp] theorem drawn_stiShadow (s : State) : s.drawn.stiShadow = s.stiShadow := rfl
@[simp] theorem drawn_nonwritable (s : State) : s.drawn.nonwritable = s.nonwritable := rfl
@[simp] theorem drawn_accessRules (s : State) : s.drawn.accessRules = s.accessRules := rfl
@[simp] theorem drawn_locations (s : State) : s.drawn.locations = s.locations := rfl
@[simp] theorem drawn_mem (s : State) : s.drawn.mem = s.mem := rfl
@[simp] theorem drawn_program (s : State) : s.drawn.program = s.program := rfl
@[simp] theorem drawn_draws (s : State) : s.drawn.draws = s.draws + 1 := rfl

/-! ## `retire` -/

@[simp] theorem retire_regs (s : State) (L : Nat) : (s.retire L).regs = s.regs := rfl
@[simp] theorem retire_pc (s : State) (L : Nat) : (s.retire L).pc = advance s.defaultSize s.pc L := rfl
@[simp] theorem retire_flags (s : State) (L : Nat) : (s.retire L).flags = s.flags := rfl
@[simp] theorem retire_mode (s : State) (L : Nat) : (s.retire L).mode = s.mode := rfl
@[simp] theorem retire_defaultSize (s : State) (L : Nat) : (s.retire L).defaultSize = s.defaultSize := rfl
@[simp] theorem retire_cpl (s : State) (L : Nat) : (s.retire L).cpl = s.cpl := rfl
@[simp] theorem retire_iopl (s : State) (L : Nat) : (s.retire L).iopl = s.iopl := rfl
@[simp] theorem retire_segs (s : State) (L : Nat) : (s.retire L).segs = s.segs := rfl
@[simp] theorem retire_gdtr (s : State) (L : Nat) : (s.retire L).gdtr = s.gdtr := rfl
@[simp] theorem retire_idtr (s : State) (L : Nat) : (s.retire L).idtr = s.idtr := rfl
@[simp] theorem retire_ldtr (s : State) (L : Nat) : (s.retire L).ldtr = s.ldtr := rfl
@[simp] theorem retire_tr (s : State) (L : Nat) : (s.retire L).tr = s.tr := rfl
@[simp] theorem retire_cr0 (s : State) (L : Nat) : (s.retire L).cr0 = s.cr0 := rfl
@[simp] theorem retire_stiShadow (s : State) (L : Nat) : (s.retire L).stiShadow = false := rfl
@[simp] theorem retire_nonwritable (s : State) (L : Nat) : (s.retire L).nonwritable = s.nonwritable := rfl
@[simp] theorem retire_accessRules (s : State) (L : Nat) : (s.retire L).accessRules = s.accessRules := rfl
@[simp] theorem retire_locations (s : State) (L : Nat) : (s.retire L).locations = s.locations := rfl
@[simp] theorem retire_placements (s : State) (L : Nat) : (s.retire L).placements = s.placements := rfl
@[simp] theorem retire_mem (s : State) (L : Nat) : (s.retire L).mem = s.mem := rfl
@[simp] theorem retire_program (s : State) (L : Nat) : (s.retire L).program = s.program := rfl
@[simp] theorem retire_draws (s : State) (L : Nat) : (s.retire L).draws = s.draws := rfl

/-! ## `retireShadowed` -/

@[simp] theorem retireShadowed_regs (s : State) (L : Nat) : (s.retireShadowed L).regs = s.regs := rfl
@[simp] theorem retireShadowed_pc (s : State) (L : Nat) : (s.retireShadowed L).pc = advance s.defaultSize s.pc L := rfl
@[simp] theorem retireShadowed_flags (s : State) (L : Nat) : (s.retireShadowed L).flags = s.flags := rfl
@[simp] theorem retireShadowed_mode (s : State) (L : Nat) : (s.retireShadowed L).mode = s.mode := rfl
@[simp] theorem retireShadowed_defaultSize (s : State) (L : Nat) : (s.retireShadowed L).defaultSize = s.defaultSize := rfl
@[simp] theorem retireShadowed_cpl (s : State) (L : Nat) : (s.retireShadowed L).cpl = s.cpl := rfl
@[simp] theorem retireShadowed_iopl (s : State) (L : Nat) : (s.retireShadowed L).iopl = s.iopl := rfl
@[simp] theorem retireShadowed_segs (s : State) (L : Nat) : (s.retireShadowed L).segs = s.segs := rfl
@[simp] theorem retireShadowed_gdtr (s : State) (L : Nat) : (s.retireShadowed L).gdtr = s.gdtr := rfl
@[simp] theorem retireShadowed_idtr (s : State) (L : Nat) : (s.retireShadowed L).idtr = s.idtr := rfl
@[simp] theorem retireShadowed_ldtr (s : State) (L : Nat) : (s.retireShadowed L).ldtr = s.ldtr := rfl
@[simp] theorem retireShadowed_tr (s : State) (L : Nat) : (s.retireShadowed L).tr = s.tr := rfl
@[simp] theorem retireShadowed_cr0 (s : State) (L : Nat) : (s.retireShadowed L).cr0 = s.cr0 := rfl
@[simp] theorem retireShadowed_stiShadow (s : State) (L : Nat) : (s.retireShadowed L).stiShadow = true := rfl
@[simp] theorem retireShadowed_nonwritable (s : State) (L : Nat) : (s.retireShadowed L).nonwritable = s.nonwritable := rfl
@[simp] theorem retireShadowed_accessRules (s : State) (L : Nat) : (s.retireShadowed L).accessRules = s.accessRules := rfl
@[simp] theorem retireShadowed_locations (s : State) (L : Nat) : (s.retireShadowed L).locations = s.locations := rfl
@[simp] theorem retireShadowed_placements (s : State) (L : Nat) : (s.retireShadowed L).placements = s.placements := rfl
@[simp] theorem retireShadowed_mem (s : State) (L : Nat) : (s.retireShadowed L).mem = s.mem := rfl
@[simp] theorem retireShadowed_program (s : State) (L : Nat) : (s.retireShadowed L).program = s.program := rfl
@[simp] theorem retireShadowed_draws (s : State) (L : Nat) : (s.retireShadowed L).draws = s.draws := rfl

/-! ## `writeReg` -/

@[simp] theorem writeReg_pc (w : Width) (i : BitVec 3) (v : BitVec w.bits) (s : State) : (writeReg w i v s).pc = s.pc := rfl
@[simp] theorem writeReg_flags (w : Width) (i : BitVec 3) (v : BitVec w.bits) (s : State) : (writeReg w i v s).flags = s.flags := rfl
@[simp] theorem writeReg_mode (w : Width) (i : BitVec 3) (v : BitVec w.bits) (s : State) : (writeReg w i v s).mode = s.mode := rfl
@[simp] theorem writeReg_defaultSize (w : Width) (i : BitVec 3) (v : BitVec w.bits) (s : State) : (writeReg w i v s).defaultSize = s.defaultSize := rfl
@[simp] theorem writeReg_cpl (w : Width) (i : BitVec 3) (v : BitVec w.bits) (s : State) : (writeReg w i v s).cpl = s.cpl := rfl
@[simp] theorem writeReg_iopl (w : Width) (i : BitVec 3) (v : BitVec w.bits) (s : State) : (writeReg w i v s).iopl = s.iopl := rfl
@[simp] theorem writeReg_segs (w : Width) (i : BitVec 3) (v : BitVec w.bits) (s : State) : (writeReg w i v s).segs = s.segs := rfl
@[simp] theorem writeReg_gdtr (w : Width) (i : BitVec 3) (v : BitVec w.bits) (s : State) : (writeReg w i v s).gdtr = s.gdtr := rfl
@[simp] theorem writeReg_idtr (w : Width) (i : BitVec 3) (v : BitVec w.bits) (s : State) : (writeReg w i v s).idtr = s.idtr := rfl
@[simp] theorem writeReg_ldtr (w : Width) (i : BitVec 3) (v : BitVec w.bits) (s : State) : (writeReg w i v s).ldtr = s.ldtr := rfl
@[simp] theorem writeReg_tr (w : Width) (i : BitVec 3) (v : BitVec w.bits) (s : State) : (writeReg w i v s).tr = s.tr := rfl
@[simp] theorem writeReg_cr0 (w : Width) (i : BitVec 3) (v : BitVec w.bits) (s : State) : (writeReg w i v s).cr0 = s.cr0 := rfl
@[simp] theorem writeReg_stiShadow (w : Width) (i : BitVec 3) (v : BitVec w.bits) (s : State) : (writeReg w i v s).stiShadow = s.stiShadow := rfl
@[simp] theorem writeReg_nonwritable (w : Width) (i : BitVec 3) (v : BitVec w.bits) (s : State) : (writeReg w i v s).nonwritable = s.nonwritable := rfl
@[simp] theorem writeReg_accessRules (w : Width) (i : BitVec 3) (v : BitVec w.bits) (s : State) : (writeReg w i v s).accessRules = s.accessRules := rfl
@[simp] theorem writeReg_locations (w : Width) (i : BitVec 3) (v : BitVec w.bits) (s : State) : (writeReg w i v s).locations = s.locations := rfl
@[simp] theorem writeReg_placements (w : Width) (i : BitVec 3) (v : BitVec w.bits) (s : State) : (writeReg w i v s).placements = s.placements := rfl
@[simp] theorem writeReg_mem (w : Width) (i : BitVec 3) (v : BitVec w.bits) (s : State) : (writeReg w i v s).mem = s.mem := rfl
@[simp] theorem writeReg_program (w : Width) (i : BitVec 3) (v : BitVec w.bits) (s : State) : (writeReg w i v s).program = s.program := rfl
@[simp] theorem writeReg_draws (w : Width) (i : BitVec 3) (v : BitVec w.bits) (s : State) : (writeReg w i v s).draws = s.draws := rfl

/-! ## `drawSixFlags` -/

@[simp] theorem drawSixFlags_regs (s : State) : (drawSixFlags s).regs = s.regs := rfl
@[simp] theorem drawSixFlags_pc (s : State) : (drawSixFlags s).pc = s.pc := rfl
@[simp] theorem drawSixFlags_mode (s : State) : (drawSixFlags s).mode = s.mode := rfl
@[simp] theorem drawSixFlags_defaultSize (s : State) : (drawSixFlags s).defaultSize = s.defaultSize := rfl
@[simp] theorem drawSixFlags_cpl (s : State) : (drawSixFlags s).cpl = s.cpl := rfl
@[simp] theorem drawSixFlags_iopl (s : State) : (drawSixFlags s).iopl = s.iopl := rfl
@[simp] theorem drawSixFlags_segs (s : State) : (drawSixFlags s).segs = s.segs := rfl
@[simp] theorem drawSixFlags_gdtr (s : State) : (drawSixFlags s).gdtr = s.gdtr := rfl
@[simp] theorem drawSixFlags_idtr (s : State) : (drawSixFlags s).idtr = s.idtr := rfl
@[simp] theorem drawSixFlags_ldtr (s : State) : (drawSixFlags s).ldtr = s.ldtr := rfl
@[simp] theorem drawSixFlags_tr (s : State) : (drawSixFlags s).tr = s.tr := rfl
@[simp] theorem drawSixFlags_cr0 (s : State) : (drawSixFlags s).cr0 = s.cr0 := rfl
@[simp] theorem drawSixFlags_stiShadow (s : State) : (drawSixFlags s).stiShadow = s.stiShadow := rfl
@[simp] theorem drawSixFlags_nonwritable (s : State) : (drawSixFlags s).nonwritable = s.nonwritable := rfl
@[simp] theorem drawSixFlags_accessRules (s : State) : (drawSixFlags s).accessRules = s.accessRules := rfl
@[simp] theorem drawSixFlags_locations (s : State) : (drawSixFlags s).locations = s.locations := rfl
@[simp] theorem drawSixFlags_placements (s : State) : (drawSixFlags s).placements = s.placements := rfl
@[simp] theorem drawSixFlags_mem (s : State) : (drawSixFlags s).mem = s.mem := rfl
@[simp] theorem drawSixFlags_program (s : State) : (drawSixFlags s).program = s.program := rfl
@[simp] theorem drawSixFlags_draws (s : State) : (drawSixFlags s).draws = s.draws + 6 := rfl

end Sys2Proof.Machine
end

