-- ==== Sys2Proof/Laws/Ops.lean ====
section
/-! SUPPORT. One law for each shared operation that says what it can do: registers, memory, access, operand places. -/

namespace Sys2Proof.Machine

open Sys2Proof

/-! ## Registers -/

/-- A register holds what was written last (R20). -/
theorem x_setX (s : State) (i k : BitVec 3) (v : Dword) : (s.setX i v).x k = if i = k then v else s.x k := by
  simp [State.setX, State.x, Vector.getElem_set, BitVec.toNat_inj]

@[simp] theorem x_withFlags (s : State) (f : Flags) (k : BitVec 3) : (s.withFlags f).x k = s.x k := rfl
@[simp] theorem x_withMem (s : State) (m : Memory) (k : BitVec 3) : (s.withMem m).x k = s.x k := rfl
@[simp] theorem x_drawn (s : State) (k : BitVec 3) : s.drawn.x k = s.x k := rfl
@[simp] theorem x_retire (s : State) (L : Nat) (k : BitVec 3) : (s.retire L).x k = s.x k := rfl
@[simp] theorem x_retireShadowed (s : State) (L : Nat) (k : BitVec 3) : (s.retireShadowed L).x k = s.x k := rfl
@[simp] theorem x_drawSixFlags (s : State) (k : BitVec 3) : (drawSixFlags s).x k = s.x k := rfl

/-- The bits of a register after a view of it is replaced (R23). -/
theorem getLsbD_insertBits (old : Dword) (lo : Nat) {n : Nat} (v : BitVec n) (j : Nat) (hj : j < 32) :
    (insertBits old lo v).getLsbD j = if lo ≤ j ∧ j < lo + n then v.getLsbD (j - lo) else old.getLsbD j := by
  unfold insertBits
  simp only [BitVec.getLsbD_or, BitVec.getLsbD_and, BitVec.getLsbD_not, BitVec.getLsbD_shiftLeft,
    BitVec.getLsbD_setWidth, BitVec.getLsbD_allOnes]
  by_cases h1 : j < lo
  · have h2 : ¬ (lo ≤ j ∧ j < lo + n) := by omega
    simp [hj, h1, h2]
  · by_cases h3 : j < lo + n
    · have h4 : j - lo < n := by omega
      have h5 : j - lo < 32 := by omega
      have h6 : lo ≤ j := by omega
      simp [hj, h1, h3, h4, h5, h6]
    · have h4 : ¬ j - lo < n := by omega
      have h5 : v.getLsbD (j - lo) = false := BitVec.getLsbD_of_ge v (j - lo) (by omega)
      simp [hj, h1, h3, h4, h5]

theorem view_fits (w : Width) (i : BitVec 3) : viewLow w i + w.bits ≤ 32 := by
  cases w <;> simp [viewLow, Width.bits]
  split <;> omega

/-- A register view reads the bits of its register (R21, R22). -/
theorem getLsbD_readReg (w : Width) (i : BitVec 3) (s : State) (j : Nat) :
    (readReg w i s).getLsbD j = (decide (j < w.bits) && (s.x (viewReg w i)).getLsbD (viewLow w i + j)) := by
  simp [readReg, BitVec.getLsbD_extractLsb']

/-- What a write to a register view does: the bits of the view, and no other bit (R23). -/
theorem writeReg_spec (w : Width) (i : BitVec 3) (v : BitVec w.bits) (s : State) :
    ViewWritten w i v s (writeReg w i v s) := by
  intro k j hj
  unfold writeReg
  rw [x_setX]
  by_cases hk : viewReg w i = k
  · subst hk
    simp [getLsbD_insertBits _ _ _ j hj]
  · have hk' : ¬ k = viewReg w i := fun h => hk h.symm
    simp [hk, hk']

/-- Reading back what was written to a register view. -/
theorem readReg_writeReg (w : Width) (i : BitVec 3) (v : BitVec w.bits) (s : State) :
    readReg w i (writeReg w i v s) = v := by
  apply BitVec.eq_of_getLsbD_eq
  intro j hj
  have hf := view_fits w i
  rw [getLsbD_readReg, writeReg_spec w i v s _ _ (by omega)]
  have h1 : viewLow w i + j < viewLow w i + w.bits := by omega
  simp [hj, h1]

/-- A written view stays written under a change that keeps the registers. -/
theorem ViewWritten.congr {w : Width} {i : BitVec 3} {v : BitVec w.bits} {s s' t t' : State}
    (h : ViewWritten w i v s t) (hs : ∀ k, s'.x k = s.x k) (ht : ∀ k, t'.x k = t.x k) :
    ViewWritten w i v s' t' := by
  intro k j hj
  rw [ht k, hs k]
  exact h k j hj

/-! ## Memory -/

/-- A byte reads as what was written last (R76). -/
theorem Memory.read_write {lo : Nat} (m : Memory) (a c : Nat) (b : Byte) (h : m.wfFrom lo = true) :
    (m.write a b).read c = if c = a then b else m.read c := by
  induction m generalizing lo with
  | nil =>
    by_cases hb : b = Config.unwrittenByte <;> by_cases hc : c = a <;>
      simp [Memory.write, Memory.read, hb, hc, eq_comm]
    · intro h; exact absurd h.symm hc
  | cons e rest ih =>
    obtain ⟨k, v⟩ := e
    simp only [Memory.wfFrom, Bool.and_eq_true, decide_eq_true_eq] at h
    have ih' := ih h.2
    have below : ∀ (r : Memory) (l d : Nat), r.wfFrom l = true → d < l → r.read d = Config.unwrittenByte := by
      intro r
      induction r with
      | nil => intro l d _ _; rfl
      | cons e r ihr =>
        intro l d hr hd
        obtain ⟨k, v⟩ := e
        simp only [Memory.wfFrom, Bool.and_eq_true, decide_eq_true_eq] at hr
        have : k ≠ d := by omega
        simp only [Memory.read, this, if_false]
        exact ihr (k + 1) d hr.2 (by omega)
    unfold Memory.write
    split
    · rename_i hlt
      split
      · rename_i hb
        by_cases hc : c = a
        · subst hc
          have : k ≠ c := by omega
          simp [Memory.read, this, hb, below rest (k + 1) c h.2 (by omega)]
        · simp [hc]
      · by_cases hc : c = a
        · subst hc; simp [Memory.read]
        · have : a ≠ c := fun h => hc h.symm
          simp [Memory.read, this, hc]
    · split
      · rename_i hlt heq
        subst heq
        split
        · rename_i hb
          by_cases hc : c = a
          · subst hc; simp [hb, below rest (c + 1) c h.2 (by omega)]
          · have : a ≠ c := fun h => hc h.symm
            simp [Memory.read, this, hc]
        · by_cases hc : c = a
          · subst hc; simp [Memory.read]
          · have : a ≠ c := fun h => hc h.symm
            simp [Memory.read, this, hc]
      · rename_i hlt hne
        simp only [Memory.read, ih']
        by_cases hk : k = c
        · have : c ≠ a := by omega
          simp [hk, this]
        · simp [hk]

theorem Memory.wfFrom_write (m : Memory) (a : Nat) (b : Byte) (ha : a < 2 ^ 32) :
    ∀ lo, lo ≤ a → m.wfFrom lo = true → (m.write a b).wfFrom lo = true := by
  induction m with
  | nil =>
    intro lo hlo _
    by_cases hb : b = Config.unwrittenByte
    · simp [Memory.write, hb, Memory.wfFrom]
    · simp only [Memory.write, hb, if_false, Memory.wfFrom, Bool.and_true, Bool.and_eq_true, decide_eq_true_eq,
        bne_iff_ne, ne_eq, not_false_eq_true, and_true]
      exact ⟨hlo, ha⟩
  | cons e rest ih =>
    intro lo hlo h
    obtain ⟨k, v⟩ := e
    simp only [Memory.wfFrom, Bool.and_eq_true, decide_eq_true_eq] at h
    have weaken : ∀ (r : Memory) (l l' : Nat), l' ≤ l → r.wfFrom l = true → r.wfFrom l' = true := by
      intro r l l' hl hr
      cases r with
      | nil => rfl
      | cons e r =>
        simp only [Memory.wfFrom, Bool.and_eq_true, decide_eq_true_eq] at hr ⊢
        exact ⟨⟨⟨by omega, hr.1.1.2⟩, hr.1.2⟩, hr.2⟩
    unfold Memory.write
    split
    · split
      · simp only [Memory.wfFrom, Bool.and_eq_true, decide_eq_true_eq]
        exact h
      · rename_i hlt hb
        simp only [Memory.wfFrom, Bool.and_eq_true, decide_eq_true_eq, bne_iff_ne, ne_eq]
        exact ⟨⟨⟨hlo, ha⟩, hb⟩, ⟨⟨by omega, h.1.1.2⟩, by simpa using h.1.2⟩, h.2⟩
    · split
      · rename_i heq
        split
        · exact weaken rest (k + 1) lo (by omega) h.2
        · rename_i hb
          simp only [Memory.wfFrom, Bool.and_eq_true, decide_eq_true_eq, bne_iff_ne, ne_eq]
          exact ⟨⟨⟨hlo, ha⟩, hb⟩, by rw [heq]; exact h.2⟩
      · rename_i hlt hne
        simp only [Memory.wfFrom, Bool.and_eq_true, decide_eq_true_eq]
        exact ⟨h.1, ih (k + 1) (by omega) h.2⟩

/-- A write keeps the canonical form. -/
theorem Memory.wf_write (m : Memory) (a : Nat) (b : Byte) (ha : a < 2 ^ 32) (h : m.wf = true) :
    (m.write a b).wf = true := Memory.wfFrom_write m a b ha 0 (Nat.zero_le a) h

/-- A store of several bytes keeps the canonical form. -/
theorem Memory.wf_store (p : List Dword) (bs : List Byte) (m : Memory) (h : m.wf = true) :
    (m.store p bs).wf = true := by
  induction p generalizing bs m with
  | nil => simpa [Memory.store] using h
  | cons a p ih =>
    cases bs with
    | nil => simpa [Memory.store] using h
    | cons b bs => exact ih bs _ (Memory.wf_write m a.toNat b a.isLt h)

/-- A store leaves every byte alone that it does not name (R67). -/
theorem Memory.read_store_other (p : List Dword) (bs : List Byte) (m : Memory) (h : m.wf = true) (a : Nat)
    (ha : ∀ q ∈ p, q.toNat ≠ a) : (m.store p bs).read a = m.read a := by
  induction p generalizing bs m with
  | nil => simp [Memory.store]
  | cons q p ih =>
    cases bs with
    | nil => simp [Memory.store]
    | cons b bs =>
      have hq : ¬ a = q.toNat := fun e => ha q (by simp) e.symm
      simp only [Memory.store]
      rw [ih bs _ (Memory.wf_write m _ b q.isLt h) (fun r hr => ha r (by simp [hr])),
        Memory.read_write m _ _ b h]
      simp [hq]

/-- A store puts at an address the byte that stands last for it (R67). -/
theorem Memory.read_store_at (p : List Dword) (bs : List Byte) (m : Memory) (h : m.wf = true)
    (hl : p.length = bs.length) (k : Nat) (hk : k < p.length)
    (hlast : ∀ j, ∀ hj : j < p.length, k < j → p[j] ≠ p[k]) :
    (m.store p bs).read p[k].toNat = bs[k]'(hl ▸ hk) := by
  induction p generalizing bs m k with
  | nil => simp at hk
  | cons q p ih =>
    cases bs with
    | nil => simp at hl
    | cons b bs =>
      have hl' : p.length = bs.length := by simpa using hl
      have hw := Memory.wf_write m q.toNat b q.isLt h
      simp only [Memory.store]
      cases k with
      | zero =>
        have hne : ∀ r ∈ p, r.toNat ≠ q.toNat := by
          intro r hr e
          obtain ⟨j, hj, rfl⟩ := List.getElem_of_mem hr
          exact hlast (j + 1) (by simpa using hj) (by omega) (BitVec.eq_of_toNat_eq e)
        simp only [List.getElem_cons_zero]
        rw [Memory.read_store_other p bs _ hw _ hne, Memory.read_write m _ _ b h]
        simp
      | succ k =>
        simp only [List.getElem_cons_succ]
        exact ih bs _ hw hl' k (by simpa using hk) (fun j hj hkj e =>
          hlast (j + 1) (Nat.succ_lt_succ hj) (by omega) e)

/-! ## Access -/

@[simp] theorem segment_withFlags (s : State) (f : Flags) : (s.withFlags f).segment = s.segment := by
  funext g; cases g <;> rfl

/-- `Access` depends on its arguments and on constants of the run only (R73). -/
theorem access_congr {s t : State} (h : SameConstants s t) (r : MemRef) (n : Nat) (kind : AccessKind) :
    access t r n kind = access s r n kind := by
  have hseg : t.segment = s.segment := by
    funext g; cases g <;> simp [State.segment, h.segs]
  have hphys : physicalAddress t = physicalAddress s := by
    funext g o; simp [physicalAddress, linearAddress, h.locations, h.mode, hseg]
  have hpas : physicalAddresses t r n kind = physicalAddresses s r n kind := by
    simp [physicalAddresses, placementOf, h.placements, hphys]
  have hill : illegalAccess t r n kind = illegalAccess s r n kind := by
    simp [illegalAccess, h.accessRules]
  have hpf : pageFaultOf t r n kind = pageFaultOf s r n kind := by
    simp [pageFaultOf, h.accessRules]
  have hpc : pageCheck t r n kind = pageCheck s r n kind := by
    simp [pageCheck, hpf, hpas]
  simp [access, h.mode, h.nonwritable, hill, hpc, hpas]

/-- The location of a byte of `PROGRAM` is a constant of the run. -/
theorem programLocation_congr {s t : State} (h : SameConstants s t) (k : Nat) :
    programLocation t k = programLocation s k := by
  simp [programLocation, access_congr h, h.program]

/-- Which stores hit `PROGRAM` is a constant of the run. -/
theorem hitsProgram_congr {s t : State} (h : SameConstants s t) (p : List Dword) :
    hitsProgram t p = hitsProgram s p := by
  have : programLocations t = programLocations s := by
    simp [programLocations, h.program, funext (programLocation_congr h)]
  simp [hitsProgram, this]

/-- An access that answers `ok` gives the physical addresses of the bytes, in every mode and for every kind. -/
theorem access_ok {s : State} {r : MemRef} {n : Nat} {kind : AccessKind} {p : List Dword}
    (h : access s r n kind = .ok p) : p = physicalAddresses s r n kind := by
  unfold access pageCheck at h
  split at h <;> (repeat' split at h) <;> simp_all

/-- A placement about an access lists as many bytes as the access asks for. -/
theorem placementOf_length {s : State} {r : MemRef} {n : Nat} {kind : AccessKind} {q : Placement}
    (h : placementOf s r n kind = some q) : q.bytes.length = n := by
  have hc := List.find?_some h
  simp only [Placement.covers, Bool.and_eq_true, beq_iff_eq] at hc
  exact hc.2

@[simp] theorem length_physicalAddresses (s : State) (r : MemRef) (n : Nat) (kind : AccessKind) :
    (physicalAddresses s r n kind).length = n := by
  unfold physicalAddresses
  split
  · exact placementOf_length (by assumption)
  · simp [MemRef.offsets]

/-- An access that answers `ok` gives as many addresses as bytes were asked for. -/
theorem access_ok_length {s : State} {r : MemRef} {n : Nat} {kind : AccessKind} {p : List Dword}
    (h : access s r n kind = .ok p) : p.length = n := by
  simp [access_ok h]

theorem SameConstants.refl (s : State) : SameConstants s s :=
  ⟨rfl, rfl, rfl, rfl, rfl, rfl, rfl, rfl, rfl, rfl, rfl, rfl, rfl, rfl, rfl⟩

theorem SameConstants.trans {s t u : State} (h : SameConstants s t) (k : SameConstants t u) : SameConstants s u :=
  ⟨k.mode.trans h.mode, k.defaultSize.trans h.defaultSize, k.cpl.trans h.cpl, k.iopl.trans h.iopl,
    k.segs.trans h.segs, k.gdtr.trans h.gdtr, k.idtr.trans h.idtr, k.ldtr.trans h.ldtr, k.tr.trans h.tr,
    k.cr0.trans h.cr0, k.nonwritable.trans h.nonwritable, k.accessRules.trans h.accessRules,
    k.locations.trans h.locations, k.placements.trans h.placements, k.program.trans h.program⟩

/-! ## Places -/

/-- What a place of `n` bytes is: a register, or `n` physical bytes. -/
theorem operandPlace_ok {p : Prefixes} {rm : RM} {n : Nat} {kind : AccessKind} {s : State} {pl : Place}
    (h : operandPlace p rm n kind s = .ok pl) :
    (∃ i, rm = .reg i ∧ pl = .reg i) ∨
    (∃ m a, rm = .mem m ∧ pl = .mem a ∧ access s (memRef p m s) n kind = .ok a) := by
  unfold operandPlace at h
  cases rm with
  | reg i => left; exact ⟨i, rfl, by simpa using h.symm⟩
  | mem m =>
    right
    cases hacc : access s (memRef p m s) n kind with
    | error e => simp [hacc] at h
    | ok a => exact ⟨m, a, rfl, by simpa [hacc] using h.symm, hacc⟩

/-- A write to a storable place answers a state; to another it is refused (R84). -/
theorem storeBytes_eq (p : List Dword) (bs : List Byte) (s : State) :
    storeBytes p bs s = if hitsProgram s p then .error .storeIntoProgram else .ok (s.withMem (s.mem.store p bs)) := rfl

theorem commit_ok (L : Nat) (s : State) : commit L (.ok s) = .next (s.retire L) := rfl

theorem commit_error (L : Nat) (r : Refusal) : commit L (.error r) = .refused r := rfl

/-- All that a read-modify-write can do (R68). -/
theorem updateRM_cases (w : Width) (L : Nat) (p : Prefixes) (rm : RM)
    (f : BitVec w.bits → State → Option (BitVec w.bits) × State) (s : State) :
    (∃ e, operandPlace p rm w.bytes .readwrite s = .error e ∧ updateRM w L p rm f s = raise e s) ∨
    (∃ pl, operandPlace p rm w.bytes .readwrite s = .ok pl ∧ (f (readPlace w pl s) s).1 = none ∧
      updateRM w L p rm f s = .next ((f (readPlace w pl s) s).2.retire L)) ∨
    (∃ pl v, operandPlace p rm w.bytes .readwrite s = .ok pl ∧ (f (readPlace w pl s) s).1 = some v ∧
      updateRM w L p rm f s = commit L (writePlace w pl v (f (readPlace w pl s) s).2)) := by
  unfold updateRM
  cases h : operandPlace p rm w.bytes .readwrite s with
  | error e => exact .inl ⟨e, rfl, rfl⟩
  | ok pl =>
    right
    cases hf : f (readPlace w pl s) s with
    | mk v s1 =>
      cases v with
      | none => exact .inl ⟨pl, rfl, by simp [hf], by simp [hf]⟩
      | some v => exact .inr ⟨pl, v, rfl, by simp [hf], by simp [hf]⟩

/-- All that a read of the `r/m` operand can do (R66). -/
theorem readRM_cases (w : Width) (L : Nat) (p : Prefixes) (rm : RM) (f : BitVec w.bits → State → State) (s : State) :
    (∃ e, operandPlace p rm w.bytes .read s = .error e ∧ readRM w L p rm f s = raise e s) ∨
    (∃ pl, operandPlace p rm w.bytes .read s = .ok pl ∧
      readRM w L p rm f s = .next ((f (readPlace w pl s) s).retire L)) := by
  unfold readRM
  cases h : operandPlace p rm w.bytes .read s with
  | error e => exact .inl ⟨e, rfl, rfl⟩
  | ok pl => exact .inr ⟨pl, rfl, rfl⟩

/-- All that a write of the `r/m` operand can do (R67). -/
theorem writeRM_cases (w : Width) (L : Nat) (p : Prefixes) (rm : RM) (v : BitVec w.bits) (s : State) :
    (∃ e, operandPlace p rm w.bytes .write s = .error e ∧ writeRM w L p rm v s = raise e s) ∨
    (∃ pl, operandPlace p rm w.bytes .write s = .ok pl ∧ writeRM w L p rm v s = commit L (writePlace w pl v s)) := by
  unfold writeRM
  cases h : operandPlace p rm w.bytes .write s with
  | error e => exact .inl ⟨e, rfl, rfl⟩
  | ok pl => exact .inr ⟨pl, rfl, rfl⟩

/-- What a write leaves alone whatever it writes: everything but registers and memory. -/
structure SameOtherwise (s t : State) : Prop where
  pc : t.pc = s.pc
  flags : t.flags = s.flags
  shadow : t.stiShadow = s.stiShadow
  draws : t.draws = s.draws
  constants : SameConstants s t

theorem sameOtherwise_writeReg (w : Width) (i : BitVec 3) (v : BitVec w.bits) (s : State) :
    SameOtherwise s (writeReg w i v s) := ⟨rfl, rfl, rfl, rfl,
    ⟨rfl, rfl, rfl, rfl, rfl, rfl, rfl, rfl, rfl, rfl, rfl, rfl, rfl, rfl, rfl⟩⟩

theorem sameOtherwise_withMem (s : State) (m : Memory) : SameOtherwise s (s.withMem m) :=
  ⟨rfl, rfl, rfl, rfl,
    ⟨rfl, rfl, rfl, rfl, rfl, rfl, rfl, rfl, rfl, rfl, rfl, rfl, rfl, rfl, rfl⟩⟩

/-- Byte `k` of the bytes of a value is its bits 8k+7 to 8k; the number of bytes is what was asked for. -/
theorem bytesStored_toBytes (n : Nat) {k : Nat} (v : BitVec k) (p : List Dword) (s : State) (hp : p.length = n)
    (hm : s.mem.wf = true) :
    BytesStored p (fun j => v.extractLsb' (8 * j) 8) s (s.withMem (s.mem.store p (toBytes n v))) := by
  refine ⟨fun a ha => Memory.read_store_other p _ s.mem hm a ha, fun j hj hlast => ?_⟩
  have h := Memory.read_store_at p (toBytes n v) s.mem hm (by simp [hp]) j hj hlast
  simp only [withMem_mem] at *
  rw [h, getElem_toBytes n v j (hp ▸ hj)]

/-- All that a write of a value at a place does (R23, R67, R84). -/
theorem writePlace_storable (w : Width) (pl : Place) (v : BitVec w.bits) (s : State)
    (hl : ∀ p, pl = .mem p → p.length = w.bytes) (hm : s.mem.wf = true) (hs : storable s pl = true) :
    ∃ t, writePlace w pl v s = .ok t ∧ Holds w pl v s t ∧ SameOtherwise s t := by
  cases pl with
  | reg i => exact ⟨_, rfl, ⟨writeReg_spec w i v s, fun _ => rfl⟩, sameOtherwise_writeReg w i v s⟩
  | mem p =>
    have hh : hitsProgram s p = false := by simpa [storable] using hs
    refine ⟨s.withMem (s.mem.store p (toBytes w.bytes v)), by simp [writePlace, storeBytes, hh], ⟨fun _ => rfl, ?_⟩,
      sameOtherwise_withMem s _⟩
    exact bytesStored_toBytes w.bytes v p s (hl p rfl) hm

/-- A write to memory of `PROGRAM` is refused (R84). -/
theorem writePlace_unstorable (w : Width) (pl : Place) (v : BitVec w.bits) (s : State) (hs : storable s pl = false) :
    writePlace w pl v s = .error .storeIntoProgram := by
  cases pl with
  | reg i => simp [storable] at hs
  | mem p =>
    have hh : hitsProgram s p = true := by simpa [storable] using hs
    simp [writePlace, storeBytes, hh]

/-- An accessible place of memory has as many addresses as bytes were asked for. -/
theorem operandPlace_length {p : Prefixes} {rm : RM} {n : Nat} {kind : AccessKind} {s : State} {pl : Place}
    (h : operandPlace p rm n kind s = .ok pl) : ∀ a, pl = .mem a → a.length = n := by
  intro a ha
  rcases operandPlace_ok h with ⟨i, _, rfl⟩ | ⟨m, b, _, rfl, hacc⟩
  · cases ha
  · cases ha; exact access_ok_length hacc

/-- The advance of `pc` as a number (R27). -/
theorem toNat_advance (z : Size) (pc : Dword) (L : Nat) : (advance z pc L).toNat = (pc.toNat + L) % codeSpan z := by
  cases z with
  | s32 => simp [advance, codeSpan]
  | s16 =>
    have h : ∀ x : Dword, (x &&& 0xFFFF).toNat = x.toNat % 65536 := by
      intro x
      have := Nat.and_two_pow_sub_one_eq_mod x.toNat 16
      simpa [BitVec.toNat_and] using this
    rw [advance, h, codeSpan]
    simp only [BitVec.toNat_add, BitVec.toNat_ofNat]
    omega

/-- Completing an instruction moves `pc`, clears `sti_shadow` and does nothing else (R27, R256). -/
theorem completes_retire (i : Instr) (s t : State) (h : SameConstants s t) (hpc : t.pc = s.pc) :
    Completes i s (t.retire (instrLength i)) where
  pc := by simp [toNat_advance, h.defaultSize, hpc]
  shadow := rfl
  constants := ⟨h.mode, h.defaultSize, h.cpl, h.iopl, h.segs, h.gdtr, h.idtr, h.ldtr, h.tr, h.cr0, h.nonwritable,
    h.accessRules, h.locations, h.placements, h.program⟩

end Sys2Proof.Machine
end

