-- ==== Sys2Proof/Laws/Meanings.lean ====
section
/-! SUPPORT. What the flag computations and the shared meanings of each family can do, said once. -/

namespace Sys2Proof.Machine

open Sys2Proof

/-- What an effect on flags and draws leaves alone: registers, memory, `pc`, the shadow, DF, IF and the constants. -/
structure FlagsOnly (s t : State) : Prop where
  regs : t.regs = s.regs
  mem : t.mem = s.mem
  pc : t.pc = s.pc
  shadow : t.stiShadow = s.stiShadow
  DF : t.flags.DF = s.flags.DF
  IF : t.flags.IF = s.flags.IF
  constants : SameConstants s t

theorem flagsOnly_refl (s : State) : FlagsOnly s s := ⟨rfl, rfl, rfl, rfl, rfl, rfl, SameConstants.refl s⟩

/-- The flags of a result, with CF, AF and OF set beside them (R33). -/
theorem resultFlagsRule_ofResult {w : Width} (r : BitVec w.bits) (f : Flags) (c a o : Bool) :
    ResultFlagsRule r f { f.ofResult r with CF := c, AF := a, OF := o } := by
  refine ⟨by simp [Flags.ofResult, BitVec.msb_eq_getLsbD_last], ?_, rfl, rfl, rfl⟩
  simp only [Flags.ofResult, beq_iff_eq]
  constructor
  · intro h; rw [h]; rfl
  · intro h; exact BitVec.eq_of_toNat_eq (by simpa using h)

/-! ## Shifts -/

theorem shiftOperand_flagsOnly (op : ShiftOp) {n : Nat} (c : Nat) (a : BitVec n) (s : State) :
    FlagsOnly s (shiftOperand op c a s).2 := by
  match c with
  | 0 => exact ⟨rfl, rfl, rfl, rfl, rfl, rfl, ⟨rfl, rfl, rfl, rfl, rfl, rfl, rfl, rfl, rfl, rfl, rfl, rfl, rfl, rfl, rfl⟩⟩
  | 1 => exact ⟨rfl, rfl, rfl, rfl, rfl, rfl, ⟨rfl, rfl, rfl, rfl, rfl, rfl, rfl, rfl, rfl, rfl, rfl, rfl, rfl, rfl, rfl⟩⟩
  | _ + 2 => exact ⟨rfl, rfl, rfl, rfl, rfl, rfl, ⟨rfl, rfl, rfl, rfl, rfl, rfl, rfl, rfl, rfl, rfl, rfl, rfl, rfl, rfl, rfl⟩⟩

/-- A count of 0: no new value, and of the flags only OF is drawn (R146). -/
theorem shiftOperand_zero (op : ShiftOp) {n : Nat} (a : BitVec n) (s : State) :
    shiftOperand op 0 a s = (none, (s.withFlags { s.flags with OF := s.nextBit }).drawn) := rfl

/-- A count above 0: the value and CF of the loop, SF, ZF and PF of the value, AF some bit, OF by the instruction for a count of 1 (R143, R147, R148). -/
theorem shiftOperand_pos (op : ShiftOp) {n : Nat} (c : Nat) (a : BitVec n) (s : State) (hc : c ≠ 0) :
    (shiftOperand op c a s).1 = some (shiftLoop op c a s.flags.CF).1 ∧
    ∃ af o, (shiftOperand op c a s).2.flags =
        { s.flags.ofResult (shiftLoop op c a s.flags.CF).1 with
          CF := (shiftLoop op c a s.flags.CF).2, AF := af, OF := o } ∧
      (c = 1 → o = singleShiftOF op a (shiftLoop op c a s.flags.CF).1 (shiftLoop op c a s.flags.CF).2) := by
  match c with
  | 0 => exact absurd rfl hc
  | 1 => exact ⟨rfl, _, _, rfl, fun _ => rfl⟩
  | _ + 2 => exact ⟨rfl, _, _, rfl, by omega⟩

/-! ## Double shifts -/

theorem doubleOperand_flagsOnly (op : DoubleOp) {n : Nat} (c : Nat) (b a : BitVec n) (s : State) :
    FlagsOnly s (doubleOperand op c b a s).2 := by
  unfold doubleOperand
  split
  · exact flagsOnly_refl s
  · split <;>
      exact ⟨rfl, rfl, rfl, rfl, rfl, rfl, ⟨rfl, rfl, rfl, rfl, rfl, rfl, rfl, rfl, rfl, rfl, rfl, rfl, rfl, rfl, rfl⟩⟩

/-- A count of 0 does nothing (R222). -/
theorem doubleOperand_zero (op : DoubleOp) {n : Nat} (b a : BitVec n) (s : State) :
    doubleOperand op 0 b a s = (none, s) := rfl

/-- A count of the width or more: some value (R223). -/
theorem doubleOperand_over (op : DoubleOp) {n : Nat} (c : Nat) (b a : BitVec n) (s : State) (hc : c ≠ 0) (hn : n ≤ c) :
    ∃ v, (doubleOperand op c b a s).1 = some v := by
  exact ⟨s.nextBits n, by simp [doubleOperand, hc, hn]⟩

/-- A count in between: the value and CF of the double shift, SF, ZF and PF of the value, AF and OF some bits (R220, R224, R230). -/
theorem doubleOperand_in (op : DoubleOp) {n : Nat} (c : Nat) (b a : BitVec n) (s : State) (hc : c ≠ 0) (hn : c < n) :
    (doubleOperand op c b a s).1 = some (doubleShift op a b c).1 ∧
    ∃ af o, (doubleOperand op c b a s).2.flags =
      { s.flags.ofResult (doubleShift op a b c).1 with CF := (doubleShift op a b c).2, AF := af, OF := o } := by
  have h : ¬ n ≤ c := by omega
  exact ⟨by simp [doubleOperand, hc, h], s.nextBit, s.drawn.nextBit, by simp only [doubleOperand, hc, h, if_false]; rfl⟩

/-! ## Subtractions -/

theorem withSubFlags_flagsOnly {n : Nat} (a b : BitVec n) (c : Bool) (s : State) : FlagsOnly s (withSubFlags a b c s) :=
  ⟨rfl, rfl, rfl, rfl, rfl, rfl, ⟨rfl, rfl, rfl, rfl, rfl, rfl, rfl, rfl, rfl, rfl, rfl, rfl, rfl, rfl, rfl⟩⟩

@[simp] theorem withSubFlags_flags {n : Nat} (a b : BitVec n) (c : Bool) (s : State) :
    (withSubFlags a b c s).flags = subFlags a b c s.flags := rfl

/-! ## Strings -/

/-- Moving the index changes a general register only. -/
theorem sameOtherwise_stepIndex (z : Size) (k : Nat) (s : State) : SameOtherwise s (stepIndex z k s) := by
  cases z <;> exact sameOtherwise_writeReg ..

@[simp] theorem mem_stepIndex (z : Size) (k : Nat) (s : State) : (stepIndex z k s).mem = s.mem := by cases z <;> rfl

/-- All that SCAS can do (R170). -/
theorem scanString_cases (w : Width) (L : Nat) (p : Prefixes) (s : State) :
    (∃ e, access s (stringRef (p.addressSize s.defaultSize) s) w.bytes .read = .error e ∧
      scanString w L p s = raise e s) ∨
    (∃ a, access s (stringRef (p.addressSize s.defaultSize) s) w.bytes .read = .ok a ∧
      scanString w L p s = .next ((stepIndex (p.addressSize s.defaultSize) w.bytes
        (s.withFlags (subFlags (readReg w 0 s) (ofBytes w.bits (s.mem.load a)) false s.flags))).retire L)) := by
  unfold scanString
  cases h : access s (stringRef (p.addressSize s.defaultSize) s) w.bytes .read with
  | error e => exact .inl ⟨e, rfl, rfl⟩
  | ok a => exact .inr ⟨a, rfl, rfl⟩

/-- All that STOS can do (R260). -/
theorem storeString_cases (w : Width) (L : Nat) (p : Prefixes) (s : State) :
    (∃ e, access s (stringRef (p.addressSize s.defaultSize) s) w.bytes .write = .error e ∧
      storeString w L p s = raise e s) ∨
    (∃ a, access s (stringRef (p.addressSize s.defaultSize) s) w.bytes .write = .ok a ∧ hitsProgram s a = true ∧
      storeString w L p s = .refused .storeIntoProgram) ∨
    (∃ a, access s (stringRef (p.addressSize s.defaultSize) s) w.bytes .write = .ok a ∧ hitsProgram s a = false ∧
      storeString w L p s = .next ((stepIndex (p.addressSize s.defaultSize) w.bytes
        (s.withMem (s.mem.store a (toBytes w.bytes (readReg w 0 s))))).retire L)) := by
  unfold storeString
  cases h : access s (stringRef (p.addressSize s.defaultSize) s) w.bytes .write with
  | error e => exact .inl ⟨e, rfl, rfl⟩
  | ok a =>
    right
    cases hp : hitsProgram s a with
    | true => exact .inl ⟨a, rfl, hp, by simp [storeBytes_eq, hp]⟩
    | false => exact .inr ⟨a, rfl, hp, by simp [storeBytes_eq, hp]⟩

/-! ## System registers -/

/-- All that SGDT and SIDT can do (R210, R211, R213). -/
theorem storeTable_cases (t : DescTable) (L : Nat) (p : Prefixes) (rm : RM) (s : State) :
    (∃ i, rm = .reg i ∧ storeTable t L p rm s = raise .ud s) ∨
    (∃ m e, rm = .mem m ∧ access s (memRef p m s) 6 .write = .error e ∧ storeTable t L p rm s = raise e s) ∨
    (∃ m a, rm = .mem m ∧ access s (memRef p m s) 6 .write = .ok a ∧
      storeTable t L p rm s = commit L (storeBytes a (tableImage t (p.operandSize s.defaultSize) (s.nextBits 8))
        (afterImage (p.operandSize s.defaultSize) s))) := by
  cases rm with
  | reg i => exact .inl ⟨i, rfl, rfl⟩
  | mem m =>
    right
    cases h : access s (memRef p m s) 6 .write with
    | error e => exact .inl ⟨m, e, rfl, h, by simp [storeTable, h]⟩
    | ok a => exact .inr ⟨m, a, rfl, h, by simp [storeTable, h]⟩

/-- All that SMSW can do, and SLDT and STR where they are recognised (R240, R245, R265). -/
theorem storeSystem_cases (v : Half) (L : Nat) (p : Prefixes) (rm : RM) (s : State) :
    (∃ i, rm = .reg i ∧
      storeSystem v L p rm s = .next ((writeSystemReg (p.operandSize s.defaultSize) i v s).retire L)) ∨
    (∃ m e, rm = .mem m ∧ access s (memRef p m s) 2 .write = .error e ∧ storeSystem v L p rm s = raise e s) ∨
    (∃ m a, rm = .mem m ∧ access s (memRef p m s) 2 .write = .ok a ∧
      storeSystem v L p rm s = commit L (storeBytes a (toBytes 2 v) s)) := by
  cases rm with
  | reg i => exact .inl ⟨i, rfl, rfl⟩
  | mem m =>
    right
    cases h : access s (memRef p m s) 2 .write with
    | error e => exact .inl ⟨m, e, rfl, h, by simp [storeSystem, h]⟩
    | ok a => exact .inr ⟨m, a, rfl, h, by simp [storeSystem, h]⟩

/-- SLDT and STR: recognised in Protected Mode, Interrupt 6 elsewhere (R241, R266). -/
theorem storeSystemProtected_eq (v : Half) (L : Nat) (p : Prefixes) (rm : RM) (s : State) :
    storeSystemProtected v L p rm s = if s.mode = .prot then storeSystem v L p rm s else raise .ud s := by
  unfold storeSystemProtected
  cases s.mode <;> simp

end Sys2Proof.Machine
end

