-- ==== Sys2Proof/Laws/PerInstr.lean ====
section
/-! SUPPORT. Statements about every instruction as syntax, one lemma for each constructor of `Instr`. -/

namespace Sys2Proof.Laws.SpellingAgrees

open Sys2Proof

/-- An instruction and the first row with its encoding (`30_encoding.md` rule R112) have the same bytes and the same parts, and that first row is its own first row. -/
def Statement (i : Instr) : Prop :=
  encode (canonical i) = encode i ∧ (canonical i).parts = i.parts ∧ canonical (canonical i) = canonical i

theorem sahf (p : Prefixes) : Statement (.sahf p) := ⟨rfl, rfl, rfl⟩
theorem salRm8One (p : Prefixes) (rm : RM) : Statement (.salRm8One p rm) := ⟨rfl, rfl, rfl⟩
theorem salRm8Cl (p : Prefixes) (rm : RM) : Statement (.salRm8Cl p rm) := ⟨rfl, rfl, rfl⟩
theorem salRm8Imm8 (p : Prefixes) (rm : RM) (imm : BitVec 8) : Statement (.salRm8Imm8 p rm imm) := ⟨rfl, rfl, rfl⟩
theorem salRm16One (p : Prefixes) (rm : RM) : Statement (.salRm16One p rm) := ⟨rfl, rfl, rfl⟩
theorem salRm16Cl (p : Prefixes) (rm : RM) : Statement (.salRm16Cl p rm) := ⟨rfl, rfl, rfl⟩
theorem salRm16Imm8 (p : Prefixes) (rm : RM) (imm : BitVec 8) : Statement (.salRm16Imm8 p rm imm) := ⟨rfl, rfl, rfl⟩
theorem salRm32One (p : Prefixes) (rm : RM) : Statement (.salRm32One p rm) := ⟨rfl, rfl, rfl⟩
theorem salRm32Cl (p : Prefixes) (rm : RM) : Statement (.salRm32Cl p rm) := ⟨rfl, rfl, rfl⟩
theorem salRm32Imm8 (p : Prefixes) (rm : RM) (imm : BitVec 8) : Statement (.salRm32Imm8 p rm imm) := ⟨rfl, rfl, rfl⟩
theorem sarRm8One (p : Prefixes) (rm : RM) : Statement (.sarRm8One p rm) := ⟨rfl, rfl, rfl⟩
theorem sarRm8Cl (p : Prefixes) (rm : RM) : Statement (.sarRm8Cl p rm) := ⟨rfl, rfl, rfl⟩
theorem sarRm8Imm8 (p : Prefixes) (rm : RM) (imm : BitVec 8) : Statement (.sarRm8Imm8 p rm imm) := ⟨rfl, rfl, rfl⟩
theorem sarRm16One (p : Prefixes) (rm : RM) : Statement (.sarRm16One p rm) := ⟨rfl, rfl, rfl⟩
theorem sarRm16Cl (p : Prefixes) (rm : RM) : Statement (.sarRm16Cl p rm) := ⟨rfl, rfl, rfl⟩
theorem sarRm16Imm8 (p : Prefixes) (rm : RM) (imm : BitVec 8) : Statement (.sarRm16Imm8 p rm imm) := ⟨rfl, rfl, rfl⟩
theorem sarRm32One (p : Prefixes) (rm : RM) : Statement (.sarRm32One p rm) := ⟨rfl, rfl, rfl⟩
theorem sarRm32Cl (p : Prefixes) (rm : RM) : Statement (.sarRm32Cl p rm) := ⟨rfl, rfl, rfl⟩
theorem sarRm32Imm8 (p : Prefixes) (rm : RM) (imm : BitVec 8) : Statement (.sarRm32Imm8 p rm imm) := ⟨rfl, rfl, rfl⟩
theorem shlRm8One (p : Prefixes) (rm : RM) : Statement (.shlRm8One p rm) := ⟨rfl, rfl, rfl⟩
theorem shlRm8Cl (p : Prefixes) (rm : RM) : Statement (.shlRm8Cl p rm) := ⟨rfl, rfl, rfl⟩
theorem shlRm8Imm8 (p : Prefixes) (rm : RM) (imm : BitVec 8) : Statement (.shlRm8Imm8 p rm imm) := ⟨rfl, rfl, rfl⟩
theorem shlRm16One (p : Prefixes) (rm : RM) : Statement (.shlRm16One p rm) := ⟨rfl, rfl, rfl⟩
theorem shlRm16Cl (p : Prefixes) (rm : RM) : Statement (.shlRm16Cl p rm) := ⟨rfl, rfl, rfl⟩
theorem shlRm16Imm8 (p : Prefixes) (rm : RM) (imm : BitVec 8) : Statement (.shlRm16Imm8 p rm imm) := ⟨rfl, rfl, rfl⟩
theorem shlRm32One (p : Prefixes) (rm : RM) : Statement (.shlRm32One p rm) := ⟨rfl, rfl, rfl⟩
theorem shlRm32Cl (p : Prefixes) (rm : RM) : Statement (.shlRm32Cl p rm) := ⟨rfl, rfl, rfl⟩
theorem shlRm32Imm8 (p : Prefixes) (rm : RM) (imm : BitVec 8) : Statement (.shlRm32Imm8 p rm imm) := ⟨rfl, rfl, rfl⟩
theorem shrRm8One (p : Prefixes) (rm : RM) : Statement (.shrRm8One p rm) := ⟨rfl, rfl, rfl⟩
theorem shrRm8Cl (p : Prefixes) (rm : RM) : Statement (.shrRm8Cl p rm) := ⟨rfl, rfl, rfl⟩
theorem shrRm8Imm8 (p : Prefixes) (rm : RM) (imm : BitVec 8) : Statement (.shrRm8Imm8 p rm imm) := ⟨rfl, rfl, rfl⟩
theorem shrRm16One (p : Prefixes) (rm : RM) : Statement (.shrRm16One p rm) := ⟨rfl, rfl, rfl⟩
theorem shrRm16Cl (p : Prefixes) (rm : RM) : Statement (.shrRm16Cl p rm) := ⟨rfl, rfl, rfl⟩
theorem shrRm16Imm8 (p : Prefixes) (rm : RM) (imm : BitVec 8) : Statement (.shrRm16Imm8 p rm imm) := ⟨rfl, rfl, rfl⟩
theorem shrRm32One (p : Prefixes) (rm : RM) : Statement (.shrRm32One p rm) := ⟨rfl, rfl, rfl⟩
theorem shrRm32Cl (p : Prefixes) (rm : RM) : Statement (.shrRm32Cl p rm) := ⟨rfl, rfl, rfl⟩
theorem shrRm32Imm8 (p : Prefixes) (rm : RM) (imm : BitVec 8) : Statement (.shrRm32Imm8 p rm imm) := ⟨rfl, rfl, rfl⟩
theorem sbbAlImm8 (p : Prefixes) (imm : BitVec 8) : Statement (.sbbAlImm8 p imm) := ⟨rfl, rfl, rfl⟩
theorem sbbAxImm16 (p : Prefixes) (imm : BitVec 16) : Statement (.sbbAxImm16 p imm) := ⟨rfl, rfl, rfl⟩
theorem sbbEaxImm32 (p : Prefixes) (imm : BitVec 32) : Statement (.sbbEaxImm32 p imm) := ⟨rfl, rfl, rfl⟩
theorem sbbRm8Imm8 (p : Prefixes) (rm : RM) (imm : BitVec 8) : Statement (.sbbRm8Imm8 p rm imm) := ⟨rfl, rfl, rfl⟩
theorem sbbRm16Imm16 (p : Prefixes) (rm : RM) (imm : BitVec 16) : Statement (.sbbRm16Imm16 p rm imm) := ⟨rfl, rfl, rfl⟩
theorem sbbRm32Imm32 (p : Prefixes) (rm : RM) (imm : BitVec 32) : Statement (.sbbRm32Imm32 p rm imm) := ⟨rfl, rfl, rfl⟩
theorem sbbRm16Imm8 (p : Prefixes) (rm : RM) (imm : BitVec 8) : Statement (.sbbRm16Imm8 p rm imm) := ⟨rfl, rfl, rfl⟩
theorem sbbRm32Imm8 (p : Prefixes) (rm : RM) (imm : BitVec 8) : Statement (.sbbRm32Imm8 p rm imm) := ⟨rfl, rfl, rfl⟩
theorem sbbRm8R8 (p : Prefixes) (rm : RM) (r : BitVec 3) : Statement (.sbbRm8R8 p rm r) := ⟨rfl, rfl, rfl⟩
theorem sbbRm16R16 (p : Prefixes) (rm : RM) (r : BitVec 3) : Statement (.sbbRm16R16 p rm r) := ⟨rfl, rfl, rfl⟩
theorem sbbRm32R32 (p : Prefixes) (rm : RM) (r : BitVec 3) : Statement (.sbbRm32R32 p rm r) := ⟨rfl, rfl, rfl⟩
theorem sbbR8Rm8 (p : Prefixes) (rm : RM) (r : BitVec 3) : Statement (.sbbR8Rm8 p rm r) := ⟨rfl, rfl, rfl⟩
theorem sbbR16Rm16 (p : Prefixes) (rm : RM) (r : BitVec 3) : Statement (.sbbR16Rm16 p rm r) := ⟨rfl, rfl, rfl⟩
theorem sbbR32Rm32 (p : Prefixes) (rm : RM) (r : BitVec 3) : Statement (.sbbR32Rm32 p rm r) := ⟨rfl, rfl, rfl⟩
theorem scasM8 (p : Prefixes) : Statement (.scasM8 p) := ⟨rfl, rfl, rfl⟩
theorem scasM16 (p : Prefixes) : Statement (.scasM16 p) := ⟨rfl, rfl, rfl⟩
theorem scasM32 (p : Prefixes) : Statement (.scasM32 p) := ⟨rfl, rfl, rfl⟩
theorem scasb (p : Prefixes) : Statement (.scasb p) := ⟨rfl, rfl, rfl⟩
theorem scasw (p : Prefixes) : Statement (.scasw p) := ⟨rfl, rfl, rfl⟩
theorem scasd (p : Prefixes) : Statement (.scasd p) := ⟨rfl, rfl, rfl⟩
theorem seta (p : Prefixes) (rm : RM) : Statement (.seta p rm) := ⟨rfl, rfl, rfl⟩
theorem setae (p : Prefixes) (rm : RM) : Statement (.setae p rm) := ⟨rfl, rfl, rfl⟩
theorem setb (p : Prefixes) (rm : RM) : Statement (.setb p rm) := ⟨rfl, rfl, rfl⟩
theorem setbe (p : Prefixes) (rm : RM) : Statement (.setbe p rm) := ⟨rfl, rfl, rfl⟩
theorem setc (p : Prefixes) (rm : RM) : Statement (.setc p rm) := ⟨rfl, rfl, rfl⟩
theorem sete (p : Prefixes) (rm : RM) : Statement (.sete p rm) := ⟨rfl, rfl, rfl⟩
theorem setg (p : Prefixes) (rm : RM) : Statement (.setg p rm) := ⟨rfl, rfl, rfl⟩
theorem setge (p : Prefixes) (rm : RM) : Statement (.setge p rm) := ⟨rfl, rfl, rfl⟩
theorem setl (p : Prefixes) (rm : RM) : Statement (.setl p rm) := ⟨rfl, rfl, rfl⟩
theorem setle (p : Prefixes) (rm : RM) : Statement (.setle p rm) := ⟨rfl, rfl, rfl⟩
theorem setna (p : Prefixes) (rm : RM) : Statement (.setna p rm) := ⟨rfl, rfl, rfl⟩
theorem setnae (p : Prefixes) (rm : RM) : Statement (.setnae p rm) := ⟨rfl, rfl, rfl⟩
theorem setnb (p : Prefixes) (rm : RM) : Statement (.setnb p rm) := ⟨rfl, rfl, rfl⟩
theorem setnbe (p : Prefixes) (rm : RM) : Statement (.setnbe p rm) := ⟨rfl, rfl, rfl⟩
theorem setnc (p : Prefixes) (rm : RM) : Statement (.setnc p rm) := ⟨rfl, rfl, rfl⟩
theorem setne (p : Prefixes) (rm : RM) : Statement (.setne p rm) := ⟨rfl, rfl, rfl⟩
theorem setng (p : Prefixes) (rm : RM) : Statement (.setng p rm) := ⟨rfl, rfl, rfl⟩
theorem setnge (p : Prefixes) (rm : RM) : Statement (.setnge p rm) := ⟨rfl, rfl, rfl⟩
theorem setnl (p : Prefixes) (rm : RM) : Statement (.setnl p rm) := ⟨rfl, rfl, rfl⟩
theorem setnle (p : Prefixes) (rm : RM) : Statement (.setnle p rm) := ⟨rfl, rfl, rfl⟩
theorem setno (p : Prefixes) (rm : RM) : Statement (.setno p rm) := ⟨rfl, rfl, rfl⟩
theorem setnp (p : Prefixes) (rm : RM) : Statement (.setnp p rm) := ⟨rfl, rfl, rfl⟩
theorem setns (p : Prefixes) (rm : RM) : Statement (.setns p rm) := ⟨rfl, rfl, rfl⟩
theorem setnz (p : Prefixes) (rm : RM) : Statement (.setnz p rm) := ⟨rfl, rfl, rfl⟩
theorem seto (p : Prefixes) (rm : RM) : Statement (.seto p rm) := ⟨rfl, rfl, rfl⟩
theorem setp (p : Prefixes) (rm : RM) : Statement (.setp p rm) := ⟨rfl, rfl, rfl⟩
theorem setpe (p : Prefixes) (rm : RM) : Statement (.setpe p rm) := ⟨rfl, rfl, rfl⟩
theorem setpo (p : Prefixes) (rm : RM) : Statement (.setpo p rm) := ⟨rfl, rfl, rfl⟩
theorem sets (p : Prefixes) (rm : RM) : Statement (.sets p rm) := ⟨rfl, rfl, rfl⟩
theorem setz (p : Prefixes) (rm : RM) : Statement (.setz p rm) := ⟨rfl, rfl, rfl⟩
theorem sgdt (p : Prefixes) (rm : RM) : Statement (.sgdt p rm) := ⟨rfl, rfl, rfl⟩
theorem sidt (p : Prefixes) (rm : RM) : Statement (.sidt p rm) := ⟨rfl, rfl, rfl⟩
theorem shldRm16R16Imm8 (p : Prefixes) (rm : RM) (r : BitVec 3) (imm : BitVec 8) : Statement (.shldRm16R16Imm8 p rm r imm) := ⟨rfl, rfl, rfl⟩
theorem shldRm32R32Imm8 (p : Prefixes) (rm : RM) (r : BitVec 3) (imm : BitVec 8) : Statement (.shldRm32R32Imm8 p rm r imm) := ⟨rfl, rfl, rfl⟩
theorem shldRm16R16Cl (p : Prefixes) (rm : RM) (r : BitVec 3) : Statement (.shldRm16R16Cl p rm r) := ⟨rfl, rfl, rfl⟩
theorem shldRm32R32Cl (p : Prefixes) (rm : RM) (r : BitVec 3) : Statement (.shldRm32R32Cl p rm r) := ⟨rfl, rfl, rfl⟩
theorem shrdRm16R16Imm8 (p : Prefixes) (rm : RM) (r : BitVec 3) (imm : BitVec 8) : Statement (.shrdRm16R16Imm8 p rm r imm) := ⟨rfl, rfl, rfl⟩
theorem shrdRm32R32Imm8 (p : Prefixes) (rm : RM) (r : BitVec 3) (imm : BitVec 8) : Statement (.shrdRm32R32Imm8 p rm r imm) := ⟨rfl, rfl, rfl⟩
theorem shrdRm16R16Cl (p : Prefixes) (rm : RM) (r : BitVec 3) : Statement (.shrdRm16R16Cl p rm r) := ⟨rfl, rfl, rfl⟩
theorem shrdRm32R32Cl (p : Prefixes) (rm : RM) (r : BitVec 3) : Statement (.shrdRm32R32Cl p rm r) := ⟨rfl, rfl, rfl⟩
theorem sldt (p : Prefixes) (rm : RM) : Statement (.sldt p rm) := ⟨rfl, rfl, rfl⟩
theorem smsw (p : Prefixes) (rm : RM) : Statement (.smsw p rm) := ⟨rfl, rfl, rfl⟩
theorem stc (p : Prefixes) : Statement (.stc p) := ⟨rfl, rfl, rfl⟩
theorem std (p : Prefixes) : Statement (.std p) := ⟨rfl, rfl, rfl⟩
theorem sti (p : Prefixes) : Statement (.sti p) := ⟨rfl, rfl, rfl⟩
theorem stosM8 (p : Prefixes) : Statement (.stosM8 p) := ⟨rfl, rfl, rfl⟩
theorem stosM16 (p : Prefixes) : Statement (.stosM16 p) := ⟨rfl, rfl, rfl⟩
theorem stosM32 (p : Prefixes) : Statement (.stosM32 p) := ⟨rfl, rfl, rfl⟩
theorem stosb (p : Prefixes) : Statement (.stosb p) := ⟨rfl, rfl, rfl⟩
theorem stosw (p : Prefixes) : Statement (.stosw p) := ⟨rfl, rfl, rfl⟩
theorem stosd (p : Prefixes) : Statement (.stosd p) := ⟨rfl, rfl, rfl⟩
theorem str (p : Prefixes) (rm : RM) : Statement (.str p rm) := ⟨rfl, rfl, rfl⟩
theorem subAlImm8 (p : Prefixes) (imm : BitVec 8) : Statement (.subAlImm8 p imm) := ⟨rfl, rfl, rfl⟩
theorem subAxImm16 (p : Prefixes) (imm : BitVec 16) : Statement (.subAxImm16 p imm) := ⟨rfl, rfl, rfl⟩
theorem subEaxImm32 (p : Prefixes) (imm : BitVec 32) : Statement (.subEaxImm32 p imm) := ⟨rfl, rfl, rfl⟩
theorem subRm8Imm8 (p : Prefixes) (rm : RM) (imm : BitVec 8) : Statement (.subRm8Imm8 p rm imm) := ⟨rfl, rfl, rfl⟩
theorem subRm16Imm16 (p : Prefixes) (rm : RM) (imm : BitVec 16) : Statement (.subRm16Imm16 p rm imm) := ⟨rfl, rfl, rfl⟩
theorem subRm32Imm32 (p : Prefixes) (rm : RM) (imm : BitVec 32) : Statement (.subRm32Imm32 p rm imm) := ⟨rfl, rfl, rfl⟩
theorem subRm16Imm8 (p : Prefixes) (rm : RM) (imm : BitVec 8) : Statement (.subRm16Imm8 p rm imm) := ⟨rfl, rfl, rfl⟩
theorem subRm32Imm8 (p : Prefixes) (rm : RM) (imm : BitVec 8) : Statement (.subRm32Imm8 p rm imm) := ⟨rfl, rfl, rfl⟩
theorem subRm8R8 (p : Prefixes) (rm : RM) (r : BitVec 3) : Statement (.subRm8R8 p rm r) := ⟨rfl, rfl, rfl⟩
theorem subRm16R16 (p : Prefixes) (rm : RM) (r : BitVec 3) : Statement (.subRm16R16 p rm r) := ⟨rfl, rfl, rfl⟩
theorem subRm32R32 (p : Prefixes) (rm : RM) (r : BitVec 3) : Statement (.subRm32R32 p rm r) := ⟨rfl, rfl, rfl⟩
theorem subR8Rm8 (p : Prefixes) (rm : RM) (r : BitVec 3) : Statement (.subR8Rm8 p rm r) := ⟨rfl, rfl, rfl⟩
theorem subR16Rm16 (p : Prefixes) (rm : RM) (r : BitVec 3) : Statement (.subR16Rm16 p rm r) := ⟨rfl, rfl, rfl⟩
theorem subR32Rm32 (p : Prefixes) (rm : RM) (r : BitVec 3) : Statement (.subR32Rm32 p rm r) := ⟨rfl, rfl, rfl⟩

end Sys2Proof.Laws.SpellingAgrees
end

