-- ==== Sys2Proof/Tests/Slice0.lean ====
section
/-! SUPPORT. The model's own tests: ill-formed terms, the decoding of every constructor, single steps from the vectors of `95_test_vectors.md`, and for every obligation with hypotheses a witness that meets them. -/

namespace Sys2Proof.Tests

set_option Elab.async false

open Sys2Proof Sys2Proof.Machine

/-! ## Well-formedness: one ill-formed term for each check -/

/-- A 16-bit row needs the prefix 66 in 32-bit code (R91). -/
theorem test_ill_operand_size :
    (Instr.subRm16R16 Prefixes.none (.reg 0) 3).wellFormed .s32 = false ∧
    (Instr.subRm16R16 ⟨true, false, none⟩ (.reg 0) 3).wellFormed .s32 = true := by decide +kernel

/-- A 16-bit memory form needs the prefix 67 in 32-bit code, and a 32-bit one in 16-bit code (R94). -/
theorem test_ill_address_size :
    (Instr.seto Prefixes.none (.mem (.a16 (.direct 0)))).wellFormed .s32 = false ∧
    (Instr.seto Prefixes.none (.mem (.a32 (.direct 0)))).wellFormed .s16 = false ∧
    (Instr.seto ⟨false, true, none⟩ (.mem (.a16 (.direct 0)))).wellFormed .s32 = true := by decide +kernel

/-- BP without displacement has the encoding of the direct form (R98). -/
theorem test_ill_bp_alone :
    (Instr.seto Prefixes.none (.mem (.a16 (.based .bp .none)))).wellFormed .s16 = false := by decide +kernel

/-- Base 4 means a SIB byte, and base 5 without displacement the direct form (R99). -/
theorem test_ill_base :
    (Instr.seto Prefixes.none (.mem (.a32 (.based 4 .none)))).wellFormed .s32 = false ∧
    (Instr.seto Prefixes.none (.mem (.a32 (.based 5 .none)))).wellFormed .s32 = false := by decide +kernel

/-- In a SIB byte index 4 means no index, and base 5 without displacement no base (R100). -/
theorem test_ill_sib :
    (Instr.seto Prefixes.none (.mem (.a32 (.sib 0 (.scaled 4 0) .none)))).wellFormed .s32 = false ∧
    (Instr.seto Prefixes.none (.mem (.a32 (.sib 5 .none .none)))).wellFormed .s32 = false ∧
    (Instr.seto Prefixes.none (.mem (.a32 (.sibNoBase (.scaled 4 2) 0)))).wellFormed .s32 = false := by
  decide +kernel

/-! ## Decoding -/

/-- The bytes decode to the instruction and nothing is left. -/
def decodesTo (z : Size) (bs : List Byte) (i : Instr) : Bool :=
  match decode z bs with
  | .ok (j, []) => decide (j = i) && i.wellFormed z && decide (encode i = bs)
  | _ => false

/-- The bytes are the encoding of the second spelling and decode to the first one. -/
def secondSpelling (bs : List Byte) (i : Instr) : Bool :=
  decodesTo .s32 bs (canonical i) && decide (canonical i ≠ i) && decide (encode i = bs)

/-- The bytes are refused with this reason. -/
def refuses (z : Size) (bs : List Byte) (e : DecodeError) : Bool :=
  match decode z bs with
  | .error e' => decide (e' = e)
  | .ok _ => false

/-- Words of R105 and R106 written out, in 32-bit code. -/
theorem test_decode_sal :
    ([
      ([0x9E], .sahf Prefixes.none),
      ([0xD0, 0xE3], .salRm8One Prefixes.none (.reg 3)),
      ([0xD2, 0xE3], .salRm8Cl Prefixes.none (.reg 3)),
      ([0xC0, 0xE3, 0x9C], .salRm8Imm8 Prefixes.none (.reg 3) 0x9C),
      ([0x66, 0xD1, 0xE3], .salRm16One ⟨true, false, none⟩ (.reg 3)),
      ([0x66, 0xD3, 0xE3], .salRm16Cl ⟨true, false, none⟩ (.reg 3)),
      ([0x66, 0xC1, 0xE3, 0x9C], .salRm16Imm8 ⟨true, false, none⟩ (.reg 3) 0x9C),
      ([0xD1, 0xE3], .salRm32One Prefixes.none (.reg 3)),
      ([0xD3, 0xE3], .salRm32Cl Prefixes.none (.reg 3)),
      ([0xC1, 0xE3, 0x9C], .salRm32Imm8 Prefixes.none (.reg 3) 0x9C)] : List (List Byte × Instr)).all
      (fun q => decodesTo .s32 q.1 q.2) = true := by decide +kernel

/-- Words of R105 and R106 written out, in 32-bit code. -/
theorem test_decode_sar_shr :
    ([
      ([0xD0, 0xFB], .sarRm8One Prefixes.none (.reg 3)),
      ([0xD2, 0xFB], .sarRm8Cl Prefixes.none (.reg 3)),
      ([0xC0, 0xFB, 0x9C], .sarRm8Imm8 Prefixes.none (.reg 3) 0x9C),
      ([0x66, 0xD1, 0xFB], .sarRm16One ⟨true, false, none⟩ (.reg 3)),
      ([0x66, 0xD3, 0xFB], .sarRm16Cl ⟨true, false, none⟩ (.reg 3)),
      ([0x66, 0xC1, 0xFB, 0x9C], .sarRm16Imm8 ⟨true, false, none⟩ (.reg 3) 0x9C),
      ([0xD1, 0xFB], .sarRm32One Prefixes.none (.reg 3)),
      ([0xD3, 0xFB], .sarRm32Cl Prefixes.none (.reg 3)),
      ([0xC1, 0xFB, 0x9C], .sarRm32Imm8 Prefixes.none (.reg 3) 0x9C),
      ([0xD0, 0xEB], .shrRm8One Prefixes.none (.reg 3)),
      ([0xD2, 0xEB], .shrRm8Cl Prefixes.none (.reg 3)),
      ([0xC0, 0xEB, 0x9C], .shrRm8Imm8 Prefixes.none (.reg 3) 0x9C),
      ([0x66, 0xD1, 0xEB], .shrRm16One ⟨true, false, none⟩ (.reg 3)),
      ([0x66, 0xD3, 0xEB], .shrRm16Cl ⟨true, false, none⟩ (.reg 3)),
      ([0x66, 0xC1, 0xEB, 0x9C], .shrRm16Imm8 ⟨true, false, none⟩ (.reg 3) 0x9C),
      ([0xD1, 0xEB], .shrRm32One Prefixes.none (.reg 3)),
      ([0xD3, 0xEB], .shrRm32Cl Prefixes.none (.reg 3)),
      ([0xC1, 0xEB, 0x9C], .shrRm32Imm8 Prefixes.none (.reg 3) 0x9C)] : List (List Byte × Instr)).all
      (fun q => decodesTo .s32 q.1 q.2) = true := by decide +kernel

/-- Words of R105 and R106 written out, in 32-bit code. -/
theorem test_decode_sbb :
    ([
      ([0x1C, 0x9C], .sbbAlImm8 Prefixes.none 0x9C),
      ([0x66, 0x1D, 0x78, 0x56], .sbbAxImm16 ⟨true, false, none⟩ 0x5678),
      ([0x1D, 0x78, 0x56, 0x34, 0x12], .sbbEaxImm32 Prefixes.none 0x12345678),
      ([0x80, 0xDB, 0x9C], .sbbRm8Imm8 Prefixes.none (.reg 3) 0x9C),
      ([0x66, 0x81, 0xDB, 0x78, 0x56], .sbbRm16Imm16 ⟨true, false, none⟩ (.reg 3) 0x5678),
      ([0x81, 0xDB, 0x78, 0x56, 0x34, 0x12], .sbbRm32Imm32 Prefixes.none (.reg 3) 0x12345678),
      ([0x66, 0x83, 0xDB, 0x9C], .sbbRm16Imm8 ⟨true, false, none⟩ (.reg 3) 0x9C),
      ([0x83, 0xDB, 0x9C], .sbbRm32Imm8 Prefixes.none (.reg 3) 0x9C),
      ([0x18, 0xCA], .sbbRm8R8 Prefixes.none (.reg 2) 1),
      ([0x66, 0x19, 0xCA], .sbbRm16R16 ⟨true, false, none⟩ (.reg 2) 1),
      ([0x19, 0xCA], .sbbRm32R32 Prefixes.none (.reg 2) 1),
      ([0x1A, 0xCA], .sbbR8Rm8 Prefixes.none (.reg 2) 1),
      ([0x66, 0x1B, 0xCA], .sbbR16Rm16 ⟨true, false, none⟩ (.reg 2) 1),
      ([0x1B, 0xCA], .sbbR32Rm32 Prefixes.none (.reg 2) 1)] : List (List Byte × Instr)).all
      (fun q => decodesTo .s32 q.1 q.2) = true := by decide +kernel

/-- Words of R105 and R106 written out, in 32-bit code. -/
theorem test_decode_sub :
    ([
      ([0x2C, 0x9C], .subAlImm8 Prefixes.none 0x9C),
      ([0x66, 0x2D, 0x78, 0x56], .subAxImm16 ⟨true, false, none⟩ 0x5678),
      ([0x2D, 0x78, 0x56, 0x34, 0x12], .subEaxImm32 Prefixes.none 0x12345678),
      ([0x80, 0xEB, 0x9C], .subRm8Imm8 Prefixes.none (.reg 3) 0x9C),
      ([0x66, 0x81, 0xEB, 0x78, 0x56], .subRm16Imm16 ⟨true, false, none⟩ (.reg 3) 0x5678),
      ([0x81, 0xEB, 0x78, 0x56, 0x34, 0x12], .subRm32Imm32 Prefixes.none (.reg 3) 0x12345678),
      ([0x66, 0x83, 0xEB, 0x9C], .subRm16Imm8 ⟨true, false, none⟩ (.reg 3) 0x9C),
      ([0x83, 0xEB, 0x9C], .subRm32Imm8 Prefixes.none (.reg 3) 0x9C),
      ([0x28, 0xCA], .subRm8R8 Prefixes.none (.reg 2) 1),
      ([0x66, 0x29, 0xCA], .subRm16R16 ⟨true, false, none⟩ (.reg 2) 1),
      ([0x29, 0xCA], .subRm32R32 Prefixes.none (.reg 2) 1),
      ([0x2A, 0xCA], .subR8Rm8 Prefixes.none (.reg 2) 1),
      ([0x66, 0x2B, 0xCA], .subR16Rm16 ⟨true, false, none⟩ (.reg 2) 1),
      ([0x2B, 0xCA], .subR32Rm32 Prefixes.none (.reg 2) 1)] : List (List Byte × Instr)).all
      (fun q => decodesTo .s32 q.1 q.2) = true := by decide +kernel

/-- Words of R105 and R106 written out, in 32-bit code. -/
theorem test_decode_string :
    ([
      ([0xAE], .scasM8 Prefixes.none),
      ([0x66, 0xAF], .scasM16 ⟨true, false, none⟩),
      ([0xAF], .scasM32 Prefixes.none),
      ([0xAA], .stosM8 Prefixes.none),
      ([0x66, 0xAB], .stosM16 ⟨true, false, none⟩),
      ([0xAB], .stosM32 Prefixes.none)] : List (List Byte × Instr)).all
      (fun q => decodesTo .s32 q.1 q.2) = true := by decide +kernel

/-- Words of R105 and R106 written out, in 32-bit code. -/
theorem test_decode_setcc :
    ([
      ([0x0F, 0x97, 0xC3], .seta Prefixes.none (.reg 3)),
      ([0x0F, 0x93, 0xC3], .setae Prefixes.none (.reg 3)),
      ([0x0F, 0x92, 0xC3], .setb Prefixes.none (.reg 3)),
      ([0x0F, 0x96, 0xC3], .setbe Prefixes.none (.reg 3)),
      ([0x0F, 0x94, 0xC3], .sete Prefixes.none (.reg 3)),
      ([0x0F, 0x9F, 0xC3], .setg Prefixes.none (.reg 3)),
      ([0x0F, 0x9D, 0xC3], .setge Prefixes.none (.reg 3)),
      ([0x0F, 0x9C, 0xC3], .setl Prefixes.none (.reg 3)),
      ([0x0F, 0x9E, 0xC3], .setle Prefixes.none (.reg 3)),
      ([0x0F, 0x95, 0xC3], .setne Prefixes.none (.reg 3)),
      ([0x0F, 0x91, 0xC3], .setno Prefixes.none (.reg 3)),
      ([0x0F, 0x9B, 0xC3], .setnp Prefixes.none (.reg 3)),
      ([0x0F, 0x99, 0xC3], .setns Prefixes.none (.reg 3)),
      ([0x0F, 0x90, 0xC3], .seto Prefixes.none (.reg 3)),
      ([0x0F, 0x9A, 0xC3], .setp Prefixes.none (.reg 3)),
      ([0x0F, 0x98, 0xC3], .sets Prefixes.none (.reg 3))] : List (List Byte × Instr)).all
      (fun q => decodesTo .s32 q.1 q.2) = true := by decide +kernel

/-- Words of R105 and R106 written out, in 32-bit code. -/
theorem test_decode_system :
    ([
      ([0x0F, 0x01, 0x03], .sgdt Prefixes.none (.mem (.a32 (.based 3 .none)))),
      ([0x0F, 0x01, 0x0B], .sidt Prefixes.none (.mem (.a32 (.based 3 .none)))),
      ([0x0F, 0x00, 0xC3], .sldt Prefixes.none (.reg 3)),
      ([0x0F, 0x01, 0xE3], .smsw Prefixes.none (.reg 3)),
      ([0xF9], .stc Prefixes.none),
      ([0xFD], .std Prefixes.none),
      ([0xFB], .sti Prefixes.none),
      ([0x0F, 0x00, 0xCB], .str Prefixes.none (.reg 3))] : List (List Byte × Instr)).all
      (fun q => decodesTo .s32 q.1 q.2) = true := by decide +kernel

/-- Words of R105 and R106 written out, in 32-bit code. -/
theorem test_decode_double :
    ([
      ([0x66, 0x0F, 0xA4, 0xCA, 0x9C], .shldRm16R16Imm8 ⟨true, false, none⟩ (.reg 2) 1 0x9C),
      ([0x0F, 0xA4, 0xCA, 0x9C], .shldRm32R32Imm8 Prefixes.none (.reg 2) 1 0x9C),
      ([0x66, 0x0F, 0xA5, 0xCA], .shldRm16R16Cl ⟨true, false, none⟩ (.reg 2) 1),
      ([0x0F, 0xA5, 0xCA], .shldRm32R32Cl Prefixes.none (.reg 2) 1),
      ([0x66, 0x0F, 0xAC, 0xCA, 0x9C], .shrdRm16R16Imm8 ⟨true, false, none⟩ (.reg 2) 1 0x9C),
      ([0x0F, 0xAC, 0xCA, 0x9C], .shrdRm32R32Imm8 Prefixes.none (.reg 2) 1 0x9C),
      ([0x66, 0x0F, 0xAD, 0xCA], .shrdRm16R16Cl ⟨true, false, none⟩ (.reg 2) 1),
      ([0x0F, 0xAD, 0xCA], .shrdRm32R32Cl Prefixes.none (.reg 2) 1)] : List (List Byte × Instr)).all
      (fun q => decodesTo .s32 q.1 q.2) = true := by decide +kernel

/-- Words of the second spellings: they decode to the first row with the encoding, and the second spelling has the same encoding (R112). -/
theorem test_decode_second_shl :
    ([
      ([0xD0, 0xE3], .shlRm8One Prefixes.none (.reg 3)),
      ([0xD2, 0xE3], .shlRm8Cl Prefixes.none (.reg 3)),
      ([0xC0, 0xE3, 0x9C], .shlRm8Imm8 Prefixes.none (.reg 3) 0x9C),
      ([0x66, 0xD1, 0xE3], .shlRm16One ⟨true, false, none⟩ (.reg 3)),
      ([0x66, 0xD3, 0xE3], .shlRm16Cl ⟨true, false, none⟩ (.reg 3)),
      ([0x66, 0xC1, 0xE3, 0x9C], .shlRm16Imm8 ⟨true, false, none⟩ (.reg 3) 0x9C),
      ([0xD1, 0xE3], .shlRm32One Prefixes.none (.reg 3)),
      ([0xD3, 0xE3], .shlRm32Cl Prefixes.none (.reg 3)),
      ([0xC1, 0xE3, 0x9C], .shlRm32Imm8 Prefixes.none (.reg 3) 0x9C)] : List (List Byte × Instr)).all
      (fun q => secondSpelling q.1 q.2) = true := by decide +kernel

/-- The same for SCASB, SCASW, SCASD, STOSB, STOSW, STOSD (R112). -/
theorem test_decode_second_string :
    ([
      ([0xAE], .scasb Prefixes.none),
      ([0x66, 0xAF], .scasw ⟨true, false, none⟩),
      ([0xAF], .scasd Prefixes.none),
      ([0xAA], .stosb Prefixes.none),
      ([0x66, 0xAB], .stosw ⟨true, false, none⟩),
      ([0xAB], .stosd Prefixes.none)] : List (List Byte × Instr)).all
      (fun q => secondSpelling q.1 q.2) = true := by decide +kernel

/-- The same for the second spellings of SETcc (R112). -/
theorem test_decode_second_setcc :
    ([
      ([0x0F, 0x92, 0xC3], .setc Prefixes.none (.reg 3)),
      ([0x0F, 0x96, 0xC3], .setna Prefixes.none (.reg 3)),
      ([0x0F, 0x92, 0xC3], .setnae Prefixes.none (.reg 3)),
      ([0x0F, 0x93, 0xC3], .setnb Prefixes.none (.reg 3)),
      ([0x0F, 0x97, 0xC3], .setnbe Prefixes.none (.reg 3)),
      ([0x0F, 0x93, 0xC3], .setnc Prefixes.none (.reg 3)),
      ([0x0F, 0x9E, 0xC3], .setng Prefixes.none (.reg 3)),
      ([0x0F, 0x9C, 0xC3], .setnge Prefixes.none (.reg 3)),
      ([0x0F, 0x9D, 0xC3], .setnl Prefixes.none (.reg 3)),
      ([0x0F, 0x9F, 0xC3], .setnle Prefixes.none (.reg 3)),
      ([0x0F, 0x95, 0xC3], .setnz Prefixes.none (.reg 3)),
      ([0x0F, 0x9A, 0xC3], .setpe Prefixes.none (.reg 3)),
      ([0x0F, 0x9B, 0xC3], .setpo Prefixes.none (.reg 3)),
      ([0x0F, 0x94, 0xC3], .setz Prefixes.none (.reg 3))] : List (List Byte × Instr)).all
      (fun q => secondSpelling q.1 q.2) = true := by decide +kernel

/-- The refused encodings of section 10 of the vectors. -/
theorem test_refused_encodings :
    refuses .s32 [0x19, 0x4C, 0x64, 0x04] .scaledNoIndex = true ∧
    refuses .s32 [0xD0, 0x30] (.unlistedDigit 6) = true ∧
    refuses .s32 [0x80, 0xC0, 0x01] (.unlistedDigit 0) = true ∧
    refuses .s32 [0x0F, 0x01, 0x10] (.unlistedDigit 2) = true ∧
    refuses .s32 [0x0F, 0x00, 0xD0] (.unlistedDigit 2) = true ∧
    refuses .s32 [0x90] (.unlistedOpcode 0x90) = true ∧
    refuses .s32 [0x0F, 0x05] (.unlistedOpcode0F 0x05) = true ∧
    refuses .s32 [0xF0, 0x29, 0x03] .lockPrefix = true ∧
    refuses .s32 [0xF3, 0xAA] .repPrefix = true ∧
    refuses .s32 [0x66, 0x66, 0x29, 0xD8] .repeatedPrefix = true ∧
    refuses .s32 [0x26, 0x2E, 0xAA] .repeatedPrefix = true ∧
    refuses .s32 [0x2D, 0x79, 0x56] .truncated = true := by decide +kernel

/-- Operand sizes of section 10 of the vectors: the same bytes in 16-bit and 32-bit code. -/
theorem test_decode_sizes :
    decodesTo .s16 [0x2D, 0x34, 0x12] (.subAxImm16 Prefixes.none 0x1234) = true ∧
    decodesTo .s32 [0x66, 0x2D, 0x34, 0x12] (.subAxImm16 ⟨true, false, none⟩ 0x1234) = true ∧
    decodesTo .s16 [0xAB] (.stosM16 Prefixes.none) = true ∧
    decodesTo .s16 [0x66, 0xAB] (.stosM32 ⟨true, false, none⟩) = true ∧
    decodesTo .s32 [0x66, 0x9E] (.sahf ⟨true, false, none⟩) = true := by decide +kernel

/-- The longest instruction, 14 bytes (R104), and `SUB dword DS:[ECX*4+00001000],12345678` of section 10. -/
theorem test_decode_long :
    decodesTo .s32 [0x81, 0x2C, 0x8D, 0x00, 0x10, 0x00, 0x00, 0x78, 0x56, 0x34, 0x12]
      (.subRm32Imm32 Prefixes.none (.mem (.a32 (.sibNoBase (.scaled 1 2) 0x00001000))) 0x12345678) = true ∧
    decodesTo .s16
      [0x66, 0x67, 0x64, 0x81, 0x9C, 0x8B, 0x44, 0x33, 0x22, 0x11, 0x78, 0x56, 0x34, 0x12]
      (.sbbRm32Imm32 ⟨true, true, some .fs⟩ (.mem (.a32 (.sib 3 (.scaled 1 2) (.full 0x11223344)))) 0x12345678) =
      true := by decide +kernel

/-- The table's own words, as the host numbers them. -/
theorem test_table_words :
    decodeTableWord 8 0x9E = some (.sahf Prefixes.none) ∧
    decodeTableWord 16 0x20D0 = some (.salRm8One Prefixes.none (.mem (.a16 (.based .bxSi .none)))) ∧
    decodeTableWord 16 0xD829 = some (.subRm16R16 Prefixes.none (.reg 0) 3) ∧
    decodeTableWord 16 0x960F = some (.setbe Prefixes.none (.mem (.a16 (.based .bxSi .none)))) := by decide +kernel

/-! ## Single steps -/

/-- 32-bit Protected Mode code with flat segments: EAX = DEADBEEF, EBX = 00002000, EDI = 00003000; the system registers are those of section 8 of the vectors. -/
def flat : State :=
  { State.reset with
    regs := #v[0xDEADBEEF, 0, 0, 0x2000, 0x4000, 0x5000, 0x6000, 0x3000], pc := 0x100, mode := .prot, defaultSize := .s32,
    locations := [], gdtr := ⟨0x12345678, 0x03FF⟩, idtr := ⟨0x00ABCDEF, 0x07FF⟩, ldtr := 0x0028, tr := 0x0040,
    cr0 := 0x00000011 }

/-- 16-bit Real Address Mode code with selectors 0: DI = FFFE. -/
def real16 : State := { flat with mode := .real, defaultSize := .s16, regs := #v[0xDEADBEEF, 0, 0, 0, 0, 0, 0, 0x1234FFFE] }

/-- The flags CF, PF, AF, ZF, SF, OF. -/
def sixFlags (f : Flags) : List Bool := [f.CF, f.PF, f.AF, f.ZF, f.SF, f.OF]

/-- The flags 1 in OF, DF and IF, else 0. -/
def someFlags : Flags := ⟨false, false, false, false, false, true, true, true⟩

/-- One step with the bytes loaded as the program. -/
def stepOn (bs : List Byte) (s : State) : Host.Outcome State Fault Refusal := step (s.loadProgram bs)

/-- The step goes on, to a state that satisfies the check. -/
def goesTo (r : Host.Outcome State Fault Refusal) (f : State → Bool) : Bool :=
  match r with
  | .next t => f t
  | .fault _ => false
  | .refused _ => false

/-- The step raises this exception. -/
def raises (r : Host.Outcome State Fault Refusal) (e : Exc) : Bool :=
  match r with
  | .fault (.exception e' _) => decide (e' = e)
  | .fault (.completed _) => false
  | .next _ => false
  | .refused _ => false

/-- The bytes of memory from an address on. -/
def bytesAt (a n : Nat) (t : State) : List Byte := (List.range n).map fun k => t.mem.read (a + k)

/-- A vector of SUB or SBB on the accumulator: `(a, b, CF in, result, flags after)`. -/
def subVector (w : Width) (op : Byte) (v : Nat × Nat × Bool × Nat × List Bool) : Bool :=
  let s := writeReg w 0 (BitVec.ofNat _ v.1) { flat with flags := { someFlags with CF := v.2.2.1 } }
  goesTo (stepOn ((if w = .w16 then [0x66#8] else []) ++ op :: natToBytes w.bytes v.2.1) s) fun t =>
    decide (readReg w 0 t = BitVec.ofNat _ v.2.2.2.1) && decide (sixFlags t.flags = v.2.2.2.2) &&
      t.flags.DF && t.flags.IF && decide (t.x 3 = s.x 3)

/-- A vector of a shift of the accumulator by CL: `(a, CL, result, CF PF ZF SF after, OF after)`, none for flags that stay or are open. -/
def shiftVector (w : Width) (modrm : Byte) (v : Nat × Nat × Nat × Option (List Bool) × Option Bool) : Bool :=
  let s := (writeReg w 0 (BitVec.ofNat _ v.1) { flat with flags := { someFlags with CF := true } }).setX 1 (BitVec.ofNat _ v.2.1)
  goesTo (stepOn [if w = .w8 then 0xD2 else 0xD3, modrm] s) fun t =>
    decide (readReg w 0 t = BitVec.ofNat _ v.2.2.1) &&
      decide ([t.flags.CF, t.flags.PF, t.flags.ZF, t.flags.SF] = v.2.2.2.1.getD [true, false, false, false]) &&
      (v.2.2.2.2.all fun b => t.flags.OF == b) && decide (t.x 1 = s.x 1)

/-- A vector of a double shift of the accumulator with EBX or BX by CL: `(32-bit?, a, b, CL, result, CF PF ZF SF after)`. -/
def doubleVector (op : Byte) (v : Bool × Nat × Nat × Nat × Nat × List Bool) : Bool :=
  let w := if v.1 then Width.w32 else .w16
  let s := (writeReg w 0 (BitVec.ofNat _ v.2.1) (writeReg w 3 (BitVec.ofNat _ v.2.2.1) flat)).setX 1
    (BitVec.ofNat _ v.2.2.2.1)
  goesTo (stepOn ((if v.1 then [] else [0x66#8]) ++ [0x0F, op, 0xD8]) s) fun t =>
    decide (readReg w 0 t = BitVec.ofNat _ v.2.2.2.2.1) &&
      decide ([t.flags.CF, t.flags.PF, t.flags.ZF, t.flags.SF] = v.2.2.2.2.2) && decide (t.x 3 = s.x 3)

/-- A vector of SAHF: `(AH, CF PF AF ZF SF after)`. -/
def sahfVector (v : Nat × List Bool) : Bool :=
  goesTo (stepOn [0x9E] { flat.setX 0 (BitVec.ofNat _ (v.1 * 256)) with flags := someFlags }) fun t =>
    decide (sixFlags t.flags = v.2 ++ [true]) && t.flags.DF && t.flags.IF

/-- The flag states A to E of section 7 of the vectors. -/
def flagStates : List Flags :=
  [⟨false, true, false, true, false, false, false, false⟩, ⟨true, true, true, false, true, false, false, false⟩,
   ⟨false, false, true, false, false, false, false, true⟩, ⟨true, false, false, false, true, false, false, true⟩,
   ⟨false, true, true, false, false, false, false, false⟩]

/-- A vector of SETcc CL, CL being FF before: `(second opcode byte, CL after in each flag state)`. -/
def setVector (v : Byte × List Byte) : Bool :=
  (flagStates.zip v.2).all fun q =>
    goesTo (stepOn [0x0F, v.1, 0xC1] { flat.setX 1 0xFFFFFFFF with flags := q.1 }) fun t =>
      decide (t.x 1 = 0xFFFFFF00 ||| q.2.setWidth 32) && decide (t.flags = q.1)


/-- `SUB AL,imm8`: section 2 of the vectors. -/
theorem test_sub_byte :
    ([(0x00, 0x01, false, 0xFF, [true, true, true, false, true, false]),
      (0x80, 0x01, false, 0x7F, [false, false, true, false, false, true]),
      (0x7F, 0xFF, false, 0x80, [true, false, false, false, true, true]),
      (0x10, 0x01, false, 0x0F, [false, true, true, false, false, false]),
      (0x55, 0x55, false, 0x00, [false, true, false, true, false, false]),
      (0x41, 0x41, false, 0x00, [false, true, false, true, false, false]),
      (0x44, 0x45, false, 0xFF, [true, true, true, false, true, false])] : List (Nat × Nat × Bool × Nat × List Bool)).all (subVector .w8 0x2C) = true := by decide +kernel

/-- `SUB EAX,imm32`: section 2 of the vectors. -/
theorem test_sub_wide :
    ([(0x80000000, 0x00000001, false, 0x7FFFFFFF, [false, true, true, false, false, true]),
      (0x00000000, 0x00000000, false, 0x00000000, [false, true, false, true, false, false]),
      (0x12345678, 0x12345679, false, 0xFFFFFFFF, [true, true, true, false, true, false]),
      (0x7FFFFFFF, 0xFFFFFFFF, false, 0x80000000, [true, true, false, false, true, true]),
      (0x00000005, 0xFFFFFFFE, false, 0x00000007, [true, false, true, false, false, false]),
      (0x00000000, 0x00000001, false, 0xFFFFFFFF, [true, true, true, false, true, false])] : List (Nat × Nat × Bool × Nat × List Bool)).all (subVector .w32 0x2D) = true := by decide +kernel

/-- `SBB AL,imm8`: section 3 of the vectors. -/
theorem test_sbb_byte :
    ([(0x00, 0x00, true, 0xFF, [true, true, true, false, true, false]),
      (0x00, 0xFF, true, 0x00, [true, true, true, true, false, false]),
      (0x80, 0x7F, true, 0x00, [false, true, true, true, false, true]),
      (0x10, 0x0F, true, 0x00, [false, true, true, true, false, false]),
      (0x05, 0x05, false, 0x00, [false, true, false, true, false, false]),
      (0x05, 0x04, true, 0x00, [false, true, false, true, false, false]),
      (0x00, 0x0F, true, 0xF0, [true, true, true, false, true, false]),
      (0x7F, 0xFF, true, 0x7F, [true, false, true, false, false, false]),
      (0x80, 0xFF, true, 0x80, [true, false, true, false, true, false]),
      (0x80, 0x7F, false, 0x01, [false, false, true, false, false, true])] : List (Nat × Nat × Bool × Nat × List Bool)).all (subVector .w8 0x1C) = true := by decide +kernel

/-- `SBB AX,imm16`: section 3 of the vectors. -/
theorem test_sbb_wide :
    ([(0x0000, 0xFFFF, true, 0x0000, [true, true, true, true, false, false]),
      (0x8000, 0x0000, true, 0x7FFF, [false, true, true, false, false, true])] : List (Nat × Nat × Bool × Nat × List Bool)).all (subVector .w16 0x1D) = true := by decide +kernel

/-- `SHL` of a byte by CL: section 4 of the vectors. -/
theorem test_shl_byte :
    ([(0x40, 1, 0x80, some [false, false, false, true], some true),
      (0xC0, 1, 0x80, some [true, false, false, true], some false),
      (0x80, 1, 0x00, some [true, true, true, false], some true),
      (0x81, 1, 0x02, some [true, false, false, false], some true),
      (0x01, 1, 0x02, some [false, false, false, false], some false),
      (0xFF, 1, 0xFE, some [true, false, false, true], some false),
      (0xF7, 1, 0xEE, some [true, true, false, true], some false),
      (0x00, 1, 0x00, some [false, true, true, false], some false),
      (0x81, 7, 0x80, some [false, false, false, true], none),
      (0x81, 8, 0x00, some [true, true, true, false], none),
      (0x81, 9, 0x00, some [false, true, true, false], none),
      (0xFF, 31, 0x00, some [false, true, true, false], none),
      (0x80, 4, 0x00, some [false, true, true, false], none),
      (0x08, 4, 0x80, some [false, false, false, true], none),
      (0x81, 33, 0x02, some [true, false, false, false], some true),
      (0x81, 32, 0x81, none, none),
      (0x81, 0, 0x81, none, none)] : List (Nat × Nat × Nat × Option (List Bool) × Option Bool)).all
      (shiftVector .w8 0xE0) = true := by decide +kernel

/-- `SHL` of a doubleword by CL: section 4 of the vectors. -/
theorem test_shl_doubleword :
    ([(0x80000001, 1, 0x00000002, some [true, false, false, false], some true),
      (0x40000000, 1, 0x80000000, some [false, true, false, true], some true),
      (0x80000001, 31, 0x80000000, some [false, true, false, true], none),
      (0xFFFFFFF7, 2, 0xFFFFFFDC, some [true, false, false, true], none),
      (0x00000001, 31, 0x80000000, some [false, true, false, true], none),
      (0x89ABCDEF, 4, 0x9ABCDEF0, some [false, true, false, true], none),
      (0x12345678, 36, 0x23456780, some [true, false, false, false], none)] : List (Nat × Nat × Nat × Option (List Bool) × Option Bool)).all
      (shiftVector .w32 0xE0) = true := by decide +kernel

/-- `SHR` of a byte by CL: section 4 of the vectors. -/
theorem test_shr_byte :
    ([(0x40, 1, 0x20, some [false, false, false, false], some false),
      (0xC0, 1, 0x60, some [false, true, false, false], some true),
      (0x80, 1, 0x40, some [false, false, false, false], some true),
      (0x81, 1, 0x40, some [true, false, false, false], some true),
      (0x01, 1, 0x00, some [true, true, true, false], some false),
      (0xFF, 1, 0x7F, some [true, false, false, false], some true),
      (0xF7, 1, 0x7B, some [true, true, false, false], some true),
      (0x00, 1, 0x00, some [false, true, true, false], some false),
      (0x81, 7, 0x01, some [false, false, false, false], none),
      (0x81, 8, 0x00, some [true, true, true, false], none),
      (0x81, 9, 0x00, some [false, true, true, false], none),
      (0xFF, 31, 0x00, some [false, true, true, false], none),
      (0x80, 4, 0x08, some [false, false, false, false], none),
      (0x08, 4, 0x00, some [true, true, true, false], none),
      (0x81, 33, 0x40, some [true, false, false, false], some true),
      (0x81, 32, 0x81, none, none),
      (0x81, 0, 0x81, none, none)] : List (Nat × Nat × Nat × Option (List Bool) × Option Bool)).all
      (shiftVector .w8 0xE8) = true := by decide +kernel

/-- `SHR` of a doubleword by CL: section 4 of the vectors. -/
theorem test_shr_doubleword :
    ([(0x80000001, 1, 0x40000000, some [true, true, false, false], some true),
      (0x40000000, 1, 0x20000000, some [false, true, false, false], some false),
      (0x80000001, 31, 0x00000001, some [false, false, false, false], none),
      (0xFFFFFFF7, 2, 0x3FFFFFFD, some [true, false, false, false], none),
      (0x00000001, 31, 0x00000000, some [false, true, true, false], none),
      (0x89ABCDEF, 4, 0x089ABCDE, some [true, true, false, false], none),
      (0x12345678, 36, 0x01234567, some [true, false, false, false], none)] : List (Nat × Nat × Nat × Option (List Bool) × Option Bool)).all
      (shiftVector .w32 0xE8) = true := by decide +kernel

/-- `SAR` of a byte by CL: section 4 of the vectors. -/
theorem test_sar_byte :
    ([(0x40, 1, 0x20, some [false, false, false, false], some false),
      (0xC0, 1, 0xE0, some [false, false, false, true], some false),
      (0x80, 1, 0xC0, some [false, true, false, true], some false),
      (0x81, 1, 0xC0, some [true, true, false, true], some false),
      (0x01, 1, 0x00, some [true, true, true, false], some false),
      (0xFF, 1, 0xFF, some [true, true, false, true], some false),
      (0xF7, 1, 0xFB, some [true, false, false, true], some false),
      (0x00, 1, 0x00, some [false, true, true, false], some false),
      (0x81, 7, 0xFF, some [false, true, false, true], none),
      (0x81, 8, 0xFF, some [true, true, false, true], none),
      (0x81, 9, 0xFF, some [true, true, false, true], none),
      (0xFF, 31, 0xFF, some [true, true, false, true], none),
      (0x80, 4, 0xF8, some [false, false, false, true], none),
      (0x08, 4, 0x00, some [true, true, true, false], none),
      (0x81, 33, 0xC0, some [true, true, false, true], some false),
      (0x81, 32, 0x81, none, none),
      (0x81, 0, 0x81, none, none)] : List (Nat × Nat × Nat × Option (List Bool) × Option Bool)).all
      (shiftVector .w8 0xF8) = true := by decide +kernel

/-- `SAR` of a doubleword by CL: section 4 of the vectors. -/
theorem test_sar_doubleword :
    ([(0x80000001, 1, 0xC0000000, some [true, true, false, true], some false),
      (0x40000000, 1, 0x20000000, some [false, true, false, false], some false),
      (0x80000001, 31, 0xFFFFFFFF, some [false, true, false, true], none),
      (0xFFFFFFF7, 2, 0xFFFFFFFD, some [true, false, false, true], none),
      (0x00000001, 31, 0x00000000, some [false, true, true, false], none),
      (0x89ABCDEF, 4, 0xF89ABCDE, some [true, true, false, true], none),
      (0x12345678, 36, 0x01234567, some [true, false, false, false], none)] : List (Nat × Nat × Nat × Option (List Bool) × Option Bool)).all
      (shiftVector .w32 0xF8) = true := by decide +kernel

/-- `SHLD EAX,EBX,CL` and `SHLD AX,BX,CL`: section 5 of the vectors. -/
theorem test_shld :
    ([(true, 0x12345678, 0x9ABCDEF0, 4, 0x23456789, [true, false, false, false]),
      (true, 0x80000000, 0x00000001, 1, 0x00000000, [true, true, true, false]),
      (true, 0x00000001, 0x80000000, 31, 0xC0000000, [false, true, false, true]),
      (false, 0x1234, 0xABCD, 4, 0x234A, [true, false, false, false]),
      (false, 0x8001, 0x8001, 1, 0x0003, [true, true, false, false]),
      (false, 0x8001, 0x7FFE, 15, 0xBFFF, [false, true, false, true]),
      (true, 0xFFFFFFFF, 0x00000000, 16, 0xFFFF0000, [true, true, false, true]),
      (true, 0x00000000, 0xFFFFFFFF, 8, 0x000000FF, [false, true, false, false]),
      (false, 0x1234, 0x1234, 4, 0x2341, [true, true, false, false]),
      (true, 0x01234567, 0x89ABCDEF, 4, 0x12345678, [false, true, false, false]),
      (true, 0x89ABCDEF, 0x01234567, 4, 0x9ABCDEF0, [false, true, false, true])] : List (Bool × Nat × Nat × Nat × Nat × List Bool)).all
      (doubleVector 0xA5) = true := by decide +kernel

/-- `SHRD EAX,EBX,CL` and `SHRD AX,BX,CL`: section 5 of the vectors. -/
theorem test_shrd :
    ([(true, 0x12345678, 0x9ABCDEF0, 4, 0x01234567, [true, false, false, false]),
      (true, 0x80000000, 0x00000001, 1, 0xC0000000, [false, true, false, true]),
      (true, 0x00000001, 0x80000000, 31, 0x00000000, [false, true, true, false]),
      (false, 0x1234, 0xABCD, 4, 0xD123, [false, false, false, true]),
      (false, 0x8001, 0x8001, 1, 0xC000, [true, true, false, true]),
      (false, 0x8001, 0x7FFE, 15, 0xFFFD, [false, false, false, true]),
      (true, 0xFFFFFFFF, 0x00000000, 16, 0x0000FFFF, [true, true, false, false]),
      (true, 0x00000000, 0xFFFFFFFF, 8, 0xFF000000, [false, true, false, true]),
      (false, 0x1234, 0x1234, 4, 0x4123, [false, false, false, false]),
      (true, 0x01234567, 0x89ABCDEF, 4, 0xF0123456, [false, true, false, true]),
      (true, 0x89ABCDEF, 0x01234567, 4, 0x789ABCDE, [true, true, false, false])] : List (Bool × Nat × Nat × Nat × Nat × List Bool)).all
      (doubleVector 0xAD) = true := by decide +kernel

/-- SAHF: section 6 of the vectors; OF, DF and IF, set before, stay. -/
theorem test_sahf :
    ([(0x00, [false, false, false, false, false]),
      (0xFF, [true, true, true, true, true]),
      (0xD5, [true, true, true, true, true]),
      (0x2A, [false, false, false, false, false]),
      (0x81, [true, false, false, false, true]),
      (0x44, [false, true, false, true, false]),
      (0x10, [false, false, true, false, false]),
      (0x02, [false, false, false, false, false]),
      (0x40, [false, false, false, true, false]),
      (0x01, [true, false, false, false, false])] : List (Nat × List Bool)).all sahfVector = true := by decide +kernel

/-- SETcc CL after the five flag states A to E: section 7 of the vectors. -/
theorem test_setcc :
    ([(0x90, [0x00, 0x00, 0x01, 0x01, 0x00]),
      (0x91, [0x01, 0x01, 0x00, 0x00, 0x01]),
      (0x92, [0x00, 0x01, 0x00, 0x01, 0x00]),
      (0x93, [0x01, 0x00, 0x01, 0x00, 0x01]),
      (0x94, [0x01, 0x00, 0x00, 0x00, 0x00]),
      (0x95, [0x00, 0x01, 0x01, 0x01, 0x01]),
      (0x96, [0x01, 0x01, 0x00, 0x01, 0x00]),
      (0x97, [0x00, 0x00, 0x01, 0x00, 0x01]),
      (0x98, [0x00, 0x01, 0x00, 0x01, 0x00]),
      (0x99, [0x01, 0x00, 0x01, 0x00, 0x01]),
      (0x9A, [0x01, 0x01, 0x00, 0x00, 0x01]),
      (0x9B, [0x00, 0x00, 0x01, 0x01, 0x00]),
      (0x9C, [0x00, 0x01, 0x01, 0x00, 0x00]),
      (0x9D, [0x01, 0x00, 0x00, 0x01, 0x01]),
      (0x9E, [0x01, 0x01, 0x01, 0x00, 0x00]),
      (0x9F, [0x00, 0x00, 0x00, 0x01, 0x01])] : List (Byte × List Byte)).all setVector = true := by decide +kernel

/-- Immediate and register forms of SUB and SBB (sections 2 and 10): a sign-extended byte, both directions, a memory operand. -/
theorem test_sub_forms :
    goesTo (stepOn [0x83, 0xEB, 0xFF] (flat.setX 3 0x7FFFFFFF)) (fun t => decide (t.x 3 = 0x80000000)) = true ∧
    goesTo (stepOn [0x66, 0x83, 0xEB, 0xF0] (flat.setX 3 0x00120010)) (fun t => decide (t.x 3 = 0x00120020)) = true ∧
    goesTo (stepOn [0x29, 0xD8] (flat.setX 0 0x2005)) (fun t => decide (t.x 0 = 5)) = true ∧
    goesTo (stepOn [0x2B, 0xD8] (flat.setX 0 0x1FFF)) (fun t => decide (t.x 3 = 1)) = true ∧
    goesTo (stepOn [0x28, 0xE1] ((flat.setX 0 0x0300).setX 1 0x1105)) (fun t => decide (t.x 1 = 0x1102)) = true := by
  decide +kernel

/-- `SBB dword SS:[ESP+04],ECX` and `SBB AL,[EBX]`, with a borrow. -/
theorem test_sbb_memory :
    goesTo (stepOn [0x19, 0x4C, 0x24, 0x04]
      { flat.setX 1 5 with mem := [(0x4004, 0x02), (0x4005, 0x01)], flags := { someFlags with CF := true } })
      (fun t => decide (bytesAt 0x4003 6 t = [0, 0xFC, 0, 0, 0, 0])) = true ∧
    goesTo (stepOn [0x1A, 0x03]
      { flat with mem := [(0x2000, 0x0E)], flags := { someFlags with CF := true } })
      (fun t => decide (t.x 0 = 0xDEADBEE0)) = true := by decide +kernel

/-- The operand may be CL itself, `SHL CL,CL` (R153), and memory, `SAR byte DS:[EBX],1`. -/
theorem test_shift_forms :
    goesTo (stepOn [0xD2, 0xE1] (flat.setX 1 3)) (fun t => decide (t.x 1 = 0x18)) = true ∧
    goesTo (stepOn [0xD0, 0x3B] { flat with mem := [(0x2000, 0xF7)] })
      (fun t => decide (bytesAt 0x1FFF 3 t = [0, 0xFB, 0]) && t.flags.CF && !t.flags.OF) = true ∧
    goesTo (stepOn [0xC1, 0xE0, 0x24] (flat.setX 0 0x12345678)) (fun t => decide (t.x 0 = 0x23456780)) = true := by
  decide +kernel

/-- `SHLD EDX,EAX,4`, and a count of 20h that does nothing. -/
theorem test_double_forms :
    goesTo (stepOn [0x0F, 0xA4, 0xC2, 0x04] ((flat.setX 2 0x12345678).setX 0 0x9ABCDEF0))
      (fun t => decide (t.x 2 = 0x23456789) && decide (t.x 0 = 0x9ABCDEF0) && t.flags.CF) = true ∧
    goesTo (stepOn [0x0F, 0xAC, 0xC2, 0x20] { flat with flags := someFlags })
      (fun t => decide (t.x 2 = 0) && decide (t.flags = someFlags)) = true := by decide +kernel

/-- `SETNE byte SS:[EBP-4]` writes the whole byte and no other. -/
theorem test_setcc_memory :
    goesTo (stepOn [0x0F, 0x95, 0x45, 0xFC] { flat with mem := [(0x4FFB, 7), (0x4FFC, 0xFE), (0x4FFD, 9)] })
      (fun t => decide (bytesAt 0x4FFB 3 t = [7, 1, 9])) = true := by decide +kernel

/-- SGDT and SIDT in both operand sizes: section 8 of the vectors. -/
theorem test_sgdt_sidt :
    goesTo (stepOn [0x0F, 0x01, 0x03] flat) (fun t => decide (bytesAt 0x2000 6 t = [0xFF, 0x03, 0x78, 0x56, 0x34, 0x12])) = true ∧
    goesTo (stepOn [0x0F, 0x01, 0x4B, 0x08] flat) (fun t => decide (bytesAt 0x2008 6 t = [0xFF, 0x07, 0xEF, 0xCD, 0xAB, 0])) = true ∧
    raises (stepOn [0x0F, 0x01, 0xC0] flat) .ud = true ∧ raises (stepOn [0x0F, 0x01, 0xC8] flat) .ud = true := by
  decide +kernel

/-- SLDT, STR and SMSW to a register and to memory: section 8 of the vectors. -/
theorem test_sldt_str_smsw :
    goesTo (stepOn [0x66, 0x0F, 0x00, 0xC0] flat) (fun t => decide (t.x 0 = 0xDEAD0028)) = true ∧
    goesTo (stepOn [0x0F, 0x00, 0x03] flat) (fun t => decide (bytesAt 0x2000 3 t = [0x28, 0, 0])) = true ∧
    goesTo (stepOn [0x66, 0x0F, 0x00, 0xC8] flat) (fun t => decide (t.x 0 = 0xDEAD0040)) = true ∧
    goesTo (stepOn [0x0F, 0x00, 0x0B] flat) (fun t => decide (bytesAt 0x2000 2 t = [0x40, 0])) = true ∧
    goesTo (stepOn [0x66, 0x0F, 0x01, 0xE0] flat) (fun t => decide (t.x 0 = 0xDEAD0011)) = true ∧
    goesTo (stepOn [0x0F, 0x01, 0x23] flat) (fun t => decide (bytesAt 0x2000 2 t = [0x11, 0])) = true ∧
    raises (stepOn [0x0F, 0x00, 0xC0] real16) .ud = true ∧
    raises (stepOn [0x0F, 0x00, 0x03] { flat with mode := .v86 }) .ud = true ∧
    raises (stepOn [0x0F, 0x00, 0xC9] real16) .ud = true := by decide +kernel

/-- STC, STD and STI: section 9 of the vectors. -/
theorem test_stc_std_sti :
    goesTo (stepOn [0xF9] flat) (fun t => decide (t.flags = { flat.flags with CF := true }) && !t.stiShadow) = true ∧
    goesTo (stepOn [0xFD] flat) (fun t => decide (t.flags = { flat.flags with DF := true })) = true ∧
    goesTo (stepOn [0xFB] { flat with cpl := 3, iopl := 3 })
      (fun t => decide (t.flags = { flat.flags with IF := true }) && t.stiShadow) = true ∧
    raises (stepOn [0xFB] { flat with cpl := 1, iopl := 0 }) .gp0 = true ∧
    goesTo (stepOn [0xFB] { flat with mode := .v86, cpl := 3, iopl := 3 }) (fun t => t.flags.IF) = true ∧
    raises (stepOn [0xFB] { flat with mode := .v86, cpl := 3, iopl := 2 }) .gp0 = true ∧
    goesTo (stepOn [0xFB] { real16 with cpl := 3 }) (fun t => t.flags.IF) = true := by decide +kernel

/-- STOS: section 9 of the vectors. -/
theorem test_stos :
    goesTo (stepOn [0xAB] flat) (fun t => decide (bytesAt 0x3000 5 t = [0xEF, 0xBE, 0xAD, 0xDE, 0]) && decide (t.x 7 = 0x3004)) = true ∧
    goesTo (stepOn [0x66, 0xAB] { flat with flags := { flat.flags with DF := true } })
      (fun t => decide (bytesAt 0x3000 3 t = [0xEF, 0xBE, 0]) && decide (t.x 7 = 0x2FFE)) = true ∧
    goesTo (stepOn [0x2E, 0xAA] (flat.setX 0 0x5A)) (fun t => decide (bytesAt 0x3000 2 t = [0x5A, 0]) && decide (t.x 7 = 0x3001)) = true ∧
    goesTo (stepOn [0x67, 0xAA] (flat.setX 7 0x00010010)) (fun t => decide (bytesAt 0x10 1 t = [0xEF]) && decide (t.x 7 = 0x00010011)) = true :=
  by decide +kernel

/-- STOS at the end of a 16-bit segment: section 9 of the vectors. -/
theorem test_stos_edge :
    goesTo (stepOn [0xAB] real16) (fun t => decide (bytesAt 0xFFFE 3 t = [0xEF, 0xBE, 0]) && decide (t.x 7 = 0x12340000)) = true ∧
    goesTo (stepOn [0xAA] { real16.setX 7 0x12340000 with flags := { flat.flags with DF := true } })
      (fun t => decide (bytesAt 0 1 t = [0xEF]) && decide (t.x 7 = 0x1234FFFF)) = true ∧
    raises (stepOn [0xAB] (real16.setX 7 0xFFFF)) .int13 = true := by decide +kernel

/-- SCAS: section 9 of the vectors. -/
theorem test_scas :
    goesTo (stepOn [0xAE] { flat.setX 0 0x41 with mem := [(0x3000, 0x41)] })
      (fun t => decide (sixFlags t.flags = [false, true, false, true, false, false]) && decide (t.x 7 = 0x3001) &&
        decide (t.x 0 = 0x41) && decide (bytesAt 0x3000 1 t = [0x41])) = true ∧
    goesTo (stepOn [0xAF] { flat.setX 0 0x80000000 with mem := [(0x3000, 1)], flags := { flat.flags with DF := true } })
      (fun t => decide (sixFlags t.flags = [false, true, true, false, false, true]) && decide (t.x 7 = 0x2FFC)) = true ∧
    goesTo (stepOn [0x66, 0xAF] { flat.setX 0 0 with mem := [(0x3000, 0xFF), (0x3001, 0xFF)] })
      (fun t => decide (sixFlags t.flags = [true, false, true, false, false, false]) && decide (t.x 7 = 0x3002)) = true := by
  decide +kernel

/-- Exceptions of memory operands: section 11 of the vectors. -/
theorem test_exceptions :
    raises (stepOn [0x28, 0x03] { flat with nonwritable := [.ds] }) .gp0 = true ∧
    raises (stepOn [0x29, 0x45, 0x00] { flat with accessRules := [⟨.ss, 0, 0xFFFFFFFF, 4, .read, .illegal⟩] }) .ss0 = true ∧
    raises (stepOn [0x2B, 0x03] { flat with accessRules := [⟨.ds, 0x2000, 0x2000, 4, .read, .pageFault 5⟩] }) (.pf 5) = true ∧
    raises (stepOn [0x66, 0x67, 0x2B, 0x03] (real16.setX 3 0xFFFD)) .int13 = true ∧
    raises (stepOn [0x2B, 0x07] (real16.setX 3 0xFFFF)) .int13 = true ∧
    goesTo (stepOn [0x2B, 0x07] (real16.setX 3 0xFFFE)) (fun _ => true) = true ∧
    raises (stepOn [0xD3, 0x23] { flat.setX 1 0x20 with nonwritable := [.ds] }) .gp0 = true ∧
    raises (stepOn [0x0F, 0xA4, 0x03, 0x20] { flat with accessRules := [⟨.ds, 0, 0xFFFF, 4, .write, .pageFault 7⟩] }) (.pf 7) = true ∧
    raises (stepOn [0xFB] { flat with cpl := 3, iopl := 2 }) .gp0 = true := by decide +kernel

/-- A store into the program is refused, a read of it is not (R84). -/
theorem test_store_into_program :
    goesTo (stepOn [0x2B, 0x03] (flat.setX 3 0xFFFF0100)) (fun t => decide (t.x 0 = 0xDEADBEEF - 0x032B)) = true ∧
    (match stepOn [0x29, 0x03] (flat.setX 3 0xFFFF00FD) with | .refused .storeIntoProgram => true | _ => false) = true ∧
    goesTo (stepOn [0x29, 0x03] (flat.setX 3 0xFFFF00FC)) (fun _ => true) = true := by decide +kernel

/-! ## Witnesses: states and operands that meet the hypotheses of each obligation -/

/-- An answer that is not an exception, and what holds of it. -/
def okWith {α : Type} (x : Except Exc α) (f : α → Bool) : Bool :=
  match x with
  | .error _ => false
  | .ok a => f a

theorem okWith_elim {α : Type} {x : Except Exc α} {f : α → Bool} (h : okWith x f = true) :
    ∃ a, x = .ok a ∧ f a = true := by
  cases x with
  | error e => cases h
  | ok a => exact ⟨a, rfl, h⟩

/-- The answer is this exception. -/
def errorIs {α : Type} (x : Except Exc α) (e : Exc) : Bool :=
  match x with
  | .error e' => decide (e' = e)
  | .ok _ => false

theorem errorIs_elim {α : Type} {x : Except Exc α} {e : Exc} (h : errorIs x e = true) : x = .error e := by
  cases x with
  | error e' => simp only [errorIs, decide_eq_true_eq] at h; rw [h]
  | ok a => cases h

theorem goesTo_elim {r : Host.Outcome State Fault Refusal} {f : State → Bool} (h : goesTo r f = true) :
    ∃ t, r = .next t ∧ f t = true := by
  cases r with
  | next t => exact ⟨t, rfl, h⟩
  | fault _ => cases h
  | refused _ => cases h

theorem raises_elim {r : Host.Outcome State Fault Refusal} {e : Exc} (h : raises r e = true) :
    ∃ t, r = .fault (.exception e t) := by
  cases r with
  | next t => cases h
  | refused _ => cases h
  | fault f =>
    cases f with
    | completed _ => cases h
    | exception e' t => simp only [raises, decide_eq_true_eq] at h; exact ⟨t, by rw [h]⟩

/-- The operand DS:[EBX]. -/
def atEbx : RM := .mem (.a32 (.based 3 .none))

theorem witness_DecodeEncodeRoundTrip :
    (Instr.sbbRm32Imm32 ⟨true, true, some .fs⟩ (.mem (.a32 (.sib 3 (.scaled 1 2) (.full 0x11223344)))) 0x12345678).wellFormed .s16 = true ∧
    (Instr.setnz Prefixes.none (.mem (.a16 (.based .bp (.d8 0xFF))))).wellFormed .s16 = true := by decide +kernel

theorem witness_DecodedInstructionIsEncodable :
    decode .s32 [0x83, 0xD8, 0xFF, 0x90] = .ok (.sbbRm32Imm8 Prefixes.none (.reg 0) 0xFF, [0x90]) := rfl

theorem witness_PrefixOrderHasNoEffect :
    (∀ b ∈ [0x66#8, 0x67#8, 0x2E#8], prefixKind b ≠ none) ∧ [0x66#8, 0x67#8, 0x2E#8].Perm [0x2E#8, 0x66#8, 0x67#8] := by
  decide +kernel

theorem witness_RefusedPrefixBytes :
    (∀ x ∈ [0x66#8, 0x26#8], prefixKind x ≠ none) ∧ prefixKind 0x65 ≠ none ∧
    prefixKind 0x65 ∈ [0x66#8, 0x26#8].map prefixKind := by decide +kernel

theorem witness_UnlistedEncodingsRefused :
    (0x82 ∉ listedOneByte ∧ prefixByte 0x82 = none ∧ (0x82 : Byte) ≠ 0x0F) ∧
    0x8F ∉ listedTwoByte ∧ 0xA0 ∉ listedTwoByte ∧
    ([0x0F, 0x01], [0, 1, 4]) ∈ listedDigits ∧ (0xE8 : Byte).extractLsb' 3 3 ∉ [0#3, 1#3, 4#3] := by decide +kernel

/-- No prefix and three prefixes, both ends of the opcodes, a memory and a register operand, the reg fields 0 and 7. -/
theorem witness_SetccRegFieldIgnored :
    (∀ x ∈ [0x66#8, 0x67#8, 0x36#8], prefixKind x ≠ none) ∧ (0x90 : Byte) ≤ 0x90 ∧ (0x9F : Byte) ≤ 0x9F ∧
    ((0x43 : Byte).extractLsb' 6 2 = (0x7B : Byte).extractLsb' 6 2 ∧
      (0x43 : Byte).extractLsb' 0 3 = (0x7B : Byte).extractLsb' 0 3) ∧
    ((0xC1 : Byte).extractLsb' 6 2 = (0xF9 : Byte).extractLsb' 6 2 ∧
      (0xC1 : Byte).extractLsb' 0 3 = (0xF9 : Byte).extractLsb' 0 3) := by decide +kernel

/-- `mod` 0, 1 and 2, and the displacement alone. -/
theorem witness_EffectiveAddress16 :
    decodeMem .s16 0 7 [1] = .ok (.a16 (.based .bx .none), [1]) ∧
    decodeMem .s16 1 6 [0x80, 1] = .ok (.a16 (.based .bp (.d8 0x80)), [1]) ∧
    decodeMem .s16 2 3 [0x34, 0x12, 1] = .ok (.a16 (.based .bpDi (.full 0x1234)), [1]) ∧
    decodeMem .s16 0 6 [0x34, 0x12, 1] = .ok (.a16 (.direct 0x1234), [1]) := ⟨rfl, rfl, rfl, rfl⟩

/-- `mod` 0, 1 and 2, and the displacement alone. -/
theorem witness_EffectiveAddress32 :
    decodeMem .s32 0 7 [1] = .ok (.a32 (.based 7 .none), [1]) ∧
    decodeMem .s32 1 5 [0x80, 1] = .ok (.a32 (.based 5 (.d8 0x80)), [1]) ∧
    decodeMem .s32 2 0 [0x78, 0x56, 0x34, 0x12, 1] = .ok (.a32 (.based 0 (.full 0x12345678)), [1]) ∧
    decodeMem .s32 0 5 [0x78, 0x56, 0x34, 0x12, 1] = .ok (.a32 (.direct 0x12345678), [1]) :=
  ⟨rfl, rfl, rfl, rfl⟩

/-- A refused SIB byte, `mod` 0, 1 and 2, no index, and no base. -/
theorem witness_EffectiveAddressSib :
    ((0x64 : Byte).extractLsb' 3 3 = 4 ∧ (0x64 : Byte).extractLsb' 6 2 ≠ 0) ∧
    decodeMem .s32 0 4 [0x24, 1] = .ok (.a32 (.sib 4 .none .none), [1]) ∧
    decodeMem .s32 1 4 [0xED, 0x80, 1] = .ok (.a32 (.sib 5 (.scaled 5 3) (.d8 0x80)), [1]) ∧
    decodeMem .s32 2 4 [0x8D, 0, 0x10, 0, 0, 1] = .ok (.a32 (.sib 5 (.scaled 1 2) (.full 0x1000)), [1]) ∧
    decodeMem .s32 0 4 [0x8D, 0, 0x10, 0, 0, 1] = .ok (.a32 (.sibNoBase (.scaled 1 2) 0x1000), [1]) :=
  ⟨by decide, rfl, rfl, rfl, rfl⟩

theorem witness_ShiftLoopClosedForm : 1 ≤ 1 ∧ 1 ≤ 31 := by decide

theorem witness_DoubleShiftClosedForm :
    (0 < 1 ∧ 1 < Width.w8.bits) ∧ (0 < 15 ∧ 15 < Width.w16.bits) ∧ (0 < 31 ∧ 31 < Width.w32.bits) := by decide

/-- Both sides of the offset check of Real and Virtual 8086 Mode, a page fault, the three answers of Protected Mode, and a write to a nonwritable SS at an illegal address. -/
theorem witness_AccessExceptionsByMode :
    real16.mode = .real ∧ flat.mode = .prot ∧
    errorIs (access real16 ⟨.ds, 0xFFFF, .s16⟩ 2 .read) .int13 = true ∧
    okWith (access real16 ⟨.ds, 0xFFFE, .s16⟩ 2 .read) (fun _ => true) = true ∧
    errorIs (access { real16 with mode := .v86 } ⟨.ds, 0xFFFF, .s16⟩ 2 .read) .int13 = true ∧
    errorIs (access { real16 with mode := .v86, accessRules := [⟨.ds, 0, 0xFFFF, 2, .read, .pageFault 4⟩] } ⟨.ds, 0xFFFE, .s16⟩ 2 .read) (.pf 4) = true ∧
    errorIs (access { flat with nonwritable := [.ds] } ⟨.ds, 0, .s32⟩ 4 .write) .gp0 = true ∧
    okWith (access { flat with nonwritable := [.ds] } ⟨.ds, 0, .s32⟩ 4 .read) (fun _ => true) = true ∧
    errorIs (access { flat with accessRules := [⟨.ss, 0, 0xFFFFFFFF, 4, .read, .illegal⟩] } ⟨.ss, 0, .s32⟩ 4 .readwrite) .ss0 = true ∧
    errorIs (access { flat with nonwritable := [.ss], accessRules := [⟨.ss, 0, 0xFFFFFFFF, 4, .write, .illegal⟩] } ⟨.ss, 0, .s32⟩ 4 .write) .gp0 = true := by
  decide +kernel

/-- An operand of Real Address Mode that wraps nowhere, one of 32-bit code that wraps, and a location rule. -/
theorem witness_AccessAddresses :
    okWith (access { real16 with segs := State.reset.segs } ⟨.cs, 0xFFFE, .s16⟩ 2 .read) (fun p => p == [0x000FFFFE, 0x000FFFFF]) = true ∧
    okWith (access flat ⟨.ds, 0xFFFFFFFF, .s32⟩ 2 .read) (fun p => p == [0xFFFFFFFF, 0]) = true ∧
    okWith (access State.reset ⟨.cs, 0xFFF0, .s16⟩ 1 .read) (fun p => p == [0xFFFFFFF0]) = true := by decide +kernel

/-- A page that ends between the bytes of a word: this request finds its second byte elsewhere, another kind does not. -/
theorem witness_AccessAddresses_placed :
    (placementOf { flat with placements := [⟨.ds, 0xFFF, none, .write, [0xFFF, 0x5000]⟩] } ⟨.ds, 0xFFF, .s16⟩ 2 .write).isSome = true ∧
    (placementOf { flat with placements := [⟨.ds, 0xFFF, none, .write, [0xFFF, 0x5000]⟩] } ⟨.ds, 0xFFF, .s16⟩ 2 .read).isNone = true ∧
    okWith (access { flat with placements := [⟨.ds, 0xFFF, none, .write, [0xFFF, 0x5000]⟩] } ⟨.ds, 0xFFF, .s32⟩ 2 .write) (fun p => p == [0xFFF, 0x5000]) = true ∧
    okWith (access { flat with placements := [⟨.ds, 0xFFF, none, .write, [0xFFF, 0x5000]⟩] } ⟨.ds, 0xFFF, .s32⟩ 2 .read) (fun p => p == [0xFFF, 0x1000]) = true := by
  decide +kernel

/-- A word of the stack segment, and another request. -/
theorem witness_AccessMayAnswerAnyAddresses :
    (∃ p, access flat ⟨.ss, 0x4000, .s32⟩ [0x10#32, 0x20].length .write = .ok p) ∧
    (⟨.ss, 0x4001, .s32⟩ : MemRef) ≠ ⟨.ss, 0x4000, .s32⟩ := by
  obtain ⟨p, h, -⟩ := okWith_elim (x := access flat ⟨.ss, 0x4000, .s32⟩ 2 .write) (f := fun _ => true) (by decide +kernel)
  exact ⟨⟨p, h⟩, by decide⟩

theorem witness_ReadWriteFailsWhereReadOrWriteFails :
    access { flat with nonwritable := [.ds] } ⟨.ds, 0, .s32⟩ 4 .write = .error .gp0 ∧
    access { flat with accessRules := [⟨.ss, 0, 0xFFFFFFFF, 4, .read, .illegal⟩] } ⟨.ss, 0, .s32⟩ 4 .read = .error .ss0 :=
  ⟨errorIs_elim (by decide +kernel), errorIs_elim (by decide +kernel)⟩

theorem witness_LoadAfterStore :
    Memory.wf [(0x2000, 1)] = true ∧ [0xFFFFFFFF#32, 0].Nodup ∧ [0xFFFFFFFF#32, 0].length = Width.w16.bytes := by
  decide +kernel

/-- `flat` with the bytes as the program. -/
def flatWith (bs : List Byte) : State := flat.loadProgram bs

theorem witness_StepRunsDecodedInstruction :
    insideProgram (flatWith [0xF9]) = true ∧
    decode (flatWith [0xF9]).defaultSize (fetchBytes (flatWith [0xF9])) = .ok (.stc Prefixes.none, []) :=
  ⟨by decide +kernel, rfl⟩

theorem witness_StepRunsEncodedInstruction :
    insideProgram (flatWith [0x28, 0x03, 0xF9]) = true ∧
    (Instr.subRm8R8 Prefixes.none atEbx 0).wellFormed (flatWith [0x28, 0x03, 0xF9]).defaultSize = true ∧
    fetchBytes (flatWith [0x28, 0x03, 0xF9]) = encode (.subRm8R8 Prefixes.none atEbx 0) ++ [0xF9] := by decide +kernel

/-- Just past the program, one byte further, and at bytes that are no instruction. -/
theorem witness_RunEndings :
    (insideProgram { flatWith [0xF9] with pc := 0x101 } = false ∧ pastProgram { flatWith [0xF9] with pc := 0x101 } = true) ∧
    (insideProgram { flatWith [0xF9] with pc := 0x102 } = false ∧ pastProgram { flatWith [0xF9] with pc := 0x102 } = false) ∧
    (insideProgram (flatWith [0x90]) = true ∧
      decode (flatWith [0x90]).defaultSize (fetchBytes (flatWith [0x90])) = .error (.unlistedOpcode 0x90)) :=
  ⟨by decide +kernel, by decide +kernel, by decide +kernel, rfl⟩

/-- A 16-bit program that ends exactly at the top of the segment, and one that begins at offset 0 and leaves the last offset free. -/
theorem witness_RunAlwaysEnds :
    0 < ({ real16 with program := ⟨0xFFF0, List.replicate 16 0xF9⟩ } : State).program.start.toNat ∧
    ({ real16 with program := ⟨0, List.replicate 65535 0xF9⟩ } : State).program.bytes.length < codeSpan real16.defaultSize := by
  exact ⟨by decide +kernel, lt_of_eq_of_lt List.length_replicate (by decide +kernel)⟩

/-- The invariant holds and the step goes on, with STC as the program. -/
theorem witness_StepKeepsInvariant :
    Inv (flatWith [0xF9]) ∧ ∃ t, step (flatWith [0xF9]) = .next t := by
  refine ⟨⟨by decide +kernel, ?_, by decide +kernel⟩, ?_⟩
  · intro k hk
    have : k < 1 := hk
    interval_cases k
    exact ⟨0xFFFF0100, by decide +kernel, by decide +kernel⟩
  · obtain ⟨t, ht, -⟩ := goesTo_elim (r := step (flatWith [0xF9])) (f := fun _ => true) (by decide +kernel)
    exact ⟨t, ht⟩

theorem witness_StepKeepsConstants : ∃ t, step (flatWith [0xFB]) = .next t := by
  obtain ⟨t, ht, -⟩ := goesTo_elim (r := step (flatWith [0xFB])) (f := fun _ => true) (by decide +kernel)
  exact ⟨t, ht⟩

/-- STD, STI and another instruction complete; used for `DirectionAndInterruptFlags`, `StiShadowLastsOneInstruction` and, at the wrap point, `PcAdvancesByLength`. -/
theorem witness_Completions :
    (∃ t, exec (.std Prefixes.none) flat = .next t) ∧ (∃ t, exec (.sti Prefixes.none) flat = .next t) ∧
    (∃ t, exec (.stc Prefixes.none) { real16 with pc := 0xFFFF } = .next t ∧ t.pc = 0) :=
  ⟨⟨_, rfl⟩, ⟨_, rfl⟩, ⟨_, rfl, by decide +kernel⟩⟩

/-- A step that goes on, one refused, one with an exception, and the end of the program. -/
theorem witness_StepIgnoresStiShadow :
    (∃ t, step (flatWith [0xF9]) = .next t) ∧ (∃ r, step (flatWith [0x90]) = .refused r) ∧
    (∃ t, step (flatWith [0x0F, 0x01, 0xC0]) = .fault (.exception .ud t)) ∧
    (∃ t, step { flatWith [0xF9] with pc := 0x101 } = .fault (.completed t)) := by
  refine ⟨?_, ⟨_, rfl⟩, raises_elim (by decide +kernel), ⟨_, rfl⟩⟩
  obtain ⟨t, ht, -⟩ := goesTo_elim (r := step (flatWith [0xF9])) (f := fun _ => true) (by decide +kernel)
  exact ⟨t, ht⟩

/-- Each cause of an exception: an encoding not recognised, STI denied, an access. -/
theorem witness_ExceptionSources :
    (∃ t, exec (.sgdt Prefixes.none (.reg 0)) flat = .fault (.exception .ud t)) ∧
    (∃ t, exec (.sti Prefixes.none) { flat with cpl := 3 } = .fault (.exception .gp0 t)) ∧
    (∃ t, exec (.setp Prefixes.none atEbx) { flat with nonwritable := [.ds] } = .fault (.exception .gp0 t)) :=
  ⟨raises_elim (by decide +kernel), raises_elim (by decide +kernel), raises_elim (by decide +kernel)⟩

theorem witness_ExceptionsChangeNothing :
    (∃ f, exec (.sgdt Prefixes.none (.reg 0)) flat = .fault f) ∧
    (∃ e t, step (flatWith [0x0F, 0x01, 0xC0]) = .fault (.exception e t)) := by
  obtain ⟨t, ht⟩ := raises_elim (r := exec (.sgdt Prefixes.none (.reg 0)) flat) (e := .ud) (by decide +kernel)
  obtain ⟨u, hu⟩ := raises_elim (r := step (flatWith [0x0F, 0x01, 0xC0])) (e := .ud) (by decide +kernel)
  exact ⟨⟨_, ht⟩, ⟨_, _, hu⟩⟩

/-- Every mode and exception that the table of R286 admits. -/
theorem witness_ExceptionTable :
    raises (exec (.sti Prefixes.none) { flat with cpl := 1 }) .gp0 = true ∧
    raises (exec (.setp Prefixes.none atEbx) { flat with nonwritable := [.ds] }) .gp0 = true ∧
    raises (exec (.setp ⟨false, false, some .ss⟩ atEbx) { flat with accessRules := [⟨.ss, 0, 0x2000, 1, .write, .illegal⟩] }) .ss0 = true ∧
    raises (exec (.setp Prefixes.none atEbx) { flat with accessRules := [⟨.ds, 0x2000, 0x2000, 1, .write, .pageFault 2⟩] }) (.pf 2) = true ∧
    raises (exec (.sidt Prefixes.none (.reg 0)) flat) .ud = true ∧
    raises (exec (.sldt Prefixes.none (.reg 0)) real16) .ud = true ∧
    raises (exec (.stosM16 Prefixes.none) (real16.setX 7 0xFFFF)) .int13 = true ∧
    raises (exec (.sti Prefixes.none) { flat with mode := .v86, iopl := 2 }) .gp0 = true ∧
    raises (exec (.setp Prefixes.none atEbx) { flat with mode := .v86, accessRules := [⟨.ds, 0x2000, 0x2000, 1, .write, .pageFault 2⟩] }) (.pf 2) = true ∧
    raises (exec (.str Prefixes.none (.reg 0)) { flat with mode := .v86 }) .ud = true ∧
    raises (exec (.smsw Prefixes.none atEbx) ({ flat with mode := .v86 }.setX 3 0xFFFF)) .int13 = true := by decide +kernel

/-- SUB into the program is refused; the right side of the equivalence holds there. -/
theorem witness_RefusedExactlyForStoresIntoProgram :
    (∃ r, exec (.subRm32R32 Prefixes.none atEbx 0) ((flatWith [0x29, 0x03]).setX 3 0xFFFF0101) = .refused r) ∧
    countIsZero (.subRm32R32 Prefixes.none atEbx 0) flat = false ∧
    (request (.subRm32R32 Prefixes.none atEbx 0) ((flatWith [0x29, 0x03]).setX 3 0xFFFF0101)).isSome = true := by
  refine ⟨⟨.storeIntoProgram, ?_⟩, by decide +kernel, by decide +kernel⟩
  have h : (match exec (.subRm32R32 Prefixes.none atEbx 0) ((flatWith [0x29, 0x03]).setX 3 0xFFFF0101) with
    | .refused .storeIntoProgram => true | _ => false) = true := by decide +kernel
  revert h
  generalize exec (.subRm32R32 Prefixes.none atEbx 0) ((flatWith [0x29, 0x03]).setX 3 0xFFFF0101) = x
  rcases x with _ | _ | r
  · simp
  · simp
  · cases r <;> simp

theorem witness_OperandExceptionEndsRun :
    request (.stosM32 Prefixes.none) flat = some ⟨⟨.es, 0x3000, .s32⟩, 4, .write⟩ ∧
    access { flat with nonwritable := [.es] } ⟨.es, 0x3000, .s32⟩ 4 .write = .error .gp0 :=
  ⟨rfl, errorIs_elim (by decide +kernel)⟩

theorem witness_UnrecognisedEncodingsRaiseUD :
    real16.mode ≠ .prot ∧ ({ flat with mode := .v86 } : State).mode ≠ .prot ∧
    ∃ t, exec (.sidt Prefixes.none (.reg 7)) flat = .fault (.exception .ud t) :=
  ⟨by decide +kernel, by decide +kernel, raises_elim (by decide +kernel)⟩

/-- CPL = IOPL and CPL one above IOPL in Protected Mode, IOPL 3 and 2 in Virtual 8086 Mode, Real Address Mode. -/
theorem witness_StiByPrivilege :
    (let s := { flat with cpl := 2, iopl := 2 }; s.mode = .prot ∧ s.cpl.toNat ≤ s.iopl.toNat) ∧
    (let s := { flat with cpl := 3, iopl := 2 }; s.mode = .prot ∧ s.iopl.toNat < s.cpl.toNat) ∧
    (let s := { flat with mode := .v86, iopl := 3 }; s.mode = .v86 ∧ s.iopl = 3) ∧
    (let s := { flat with mode := .v86, iopl := 2 }; s.mode = .v86 ∧ s.iopl.toNat < 3) ∧
    real16.mode ≠ .prot ∧ real16.mode ≠ .v86 := by decide +kernel

/-- SUB to memory, SBB from memory, SUB with an immediate. -/
theorem witness_SubtractionCompletes :
    (∃ q pl b, subRow (.subRm32R32 Prefixes.none atEbx 0) = some q ∧ flat.mem.wf = true ∧
      operandPlace q.pre q.dest q.w.bytes .readwrite flat = .ok pl ∧ q.source flat = .ok b ∧
      storable flat pl = true) ∧
    (∃ q pl b, subRow (.sbbR8Rm8 Prefixes.none atEbx 4) = some q ∧
      operandPlace q.pre q.dest q.w.bytes .readwrite flat = .ok pl ∧ q.source flat = .ok b ∧ storable flat pl = true) ∧
    (∃ q pl b, subRow (.subRm16Imm8 ⟨true, false, none⟩ (.reg 3) 0xFF) = some q ∧
      operandPlace q.pre q.dest q.w.bytes .readwrite flat = .ok pl ∧ q.source flat = .ok b ∧
      storable flat pl = true) := by
  refine ⟨?_, ?_, ⟨_, _, _, rfl, rfl, rfl, rfl⟩⟩
  · obtain ⟨pl, h1, h2⟩ := okWith_elim (x := operandPlace Prefixes.none atEbx 4 .readwrite flat)
      (f := storable flat) (by decide +kernel)
    exact ⟨_, pl, _, rfl, by decide +kernel, h1, rfl, h2⟩
  · obtain ⟨b, h1, -⟩ := okWith_elim (x := SubRow.source ⟨.sbb, .w8, Prefixes.none, .reg 4, .rm atEbx⟩ flat)
      (f := fun _ => true) (by decide +kernel)
    exact ⟨_, _, b, rfl, rfl, h1, rfl⟩

/-- CL = 32, with a memory operand. -/
theorem witness_ShiftByZeroKeepsOperand :
    ∃ q pl, shiftRow (.sarRm32Cl Prefixes.none atEbx) = some q ∧
      operandPlace q.pre q.rm q.w.bytes .readwrite (flat.setX 1 0x20) = .ok pl ∧
      shiftCount q.count (flat.setX 1 0x20) = 0 := by
  obtain ⟨pl, h1, -⟩ := okWith_elim (x := operandPlace Prefixes.none atEbx 4 .readwrite (flat.setX 1 0x20))
    (f := fun _ => true) (by decide +kernel)
  exact ⟨_, pl, rfl, h1, by decide +kernel⟩

/-- A memory operand, with the counts 1 and 31. -/
theorem witness_ShiftCompletes :
    ∃ q q' pl, shiftRow (.shrRm8Imm8 Prefixes.none atEbx 0x21) = some q ∧
      shiftRow (.shrRm8Imm8 Prefixes.none atEbx 0xFF) = some q' ∧ flat.mem.wf = true ∧
      operandPlace q.pre q.rm q.w.bytes .readwrite flat = .ok pl ∧
      operandPlace q'.pre q'.rm q'.w.bytes .readwrite flat = .ok pl ∧ storable flat pl = true ∧
      shiftCount q.count flat = 1 ∧ shiftCount q'.count flat = 31 := by
  obtain ⟨pl, h1, h2⟩ := okWith_elim (x := operandPlace Prefixes.none atEbx 1 .readwrite flat)
    (f := storable flat) (by decide +kernel)
  exact ⟨_, _, pl, rfl, rfl, by decide +kernel, h1, h1, h2, by decide +kernel, by decide +kernel⟩

/-- A count of 0 with an operand that can be accessed, and with one that cannot. -/
theorem witness_DoubleShiftByZeroDoesNothing :
    ∃ q, doubleRow (.shldRm32R32Imm8 Prefixes.none atEbx 0 0x20) = some q ∧ shiftCount q.count flat = 0 ∧
      (∃ pl, operandPlace q.pre q.rm q.w.bytes .readwrite flat = .ok pl) ∧
      operandPlace q.pre q.rm q.w.bytes .readwrite { flat with nonwritable := [.ds] } = .error .gp0 := by
  obtain ⟨pl, h1, -⟩ := okWith_elim (x := operandPlace Prefixes.none atEbx 4 .readwrite flat)
    (f := fun _ => true) (by decide +kernel)
  exact ⟨_, rfl, by decide +kernel, ⟨pl, h1⟩, errorIs_elim (by decide +kernel)⟩

/-- A memory operand of 16 bits with the counts 1 and 15. -/
theorem witness_DoubleShiftCompletes :
    ∃ q q' pl, doubleRow (.shrdRm16R16Imm8 ⟨true, false, none⟩ atEbx 0 1) = some q ∧
      doubleRow (.shrdRm16R16Imm8 ⟨true, false, none⟩ atEbx 0 0x2F) = some q' ∧ flat.mem.wf = true ∧
      operandPlace q.pre q.rm q.w.bytes .readwrite flat = .ok pl ∧
      operandPlace q'.pre q'.rm q'.w.bytes .readwrite flat = .ok pl ∧ storable flat pl = true ∧
      shiftCount q.count flat = 1 ∧ shiftCount q'.count flat = 15 ∧ q.w.bits = 16 ∧ q'.w.bits = 16 := by
  obtain ⟨pl, h1, h2⟩ := okWith_elim (x := operandPlace ⟨true, false, none⟩ atEbx 2 .readwrite flat)
    (f := storable flat) (by decide +kernel)
  exact ⟨_, _, pl, rfl, rfl, by decide +kernel, h1, h1, h2, by decide +kernel, by decide +kernel, rfl, rfl⟩

/-- The counts 16 and 31. -/
theorem witness_DoubleShiftByTooMuch :
    ∃ q q' pl, doubleRow (.shldRm16R16Imm8 ⟨true, false, none⟩ (.reg 0) 3 16) = some q ∧
      doubleRow (.shldRm16R16Imm8 ⟨true, false, none⟩ (.reg 0) 3 31) = some q' ∧ flat.mem.wf = true ∧
      operandPlace q.pre q.rm q.w.bytes .readwrite flat = .ok pl ∧
      operandPlace q'.pre q'.rm q'.w.bytes .readwrite flat = .ok pl ∧ storable flat pl = true ∧
      q.w.bits ≤ shiftCount q.count flat ∧ q'.w.bits ≤ shiftCount q'.count flat :=
  ⟨_, _, _, rfl, rfl, by decide +kernel, rfl, rfl, rfl, by decide +kernel, by decide +kernel⟩

theorem witness_ConditionTable :
    (Cond.code .le).getLsbD 0 = false ∧ Cond.code .g = Cond.code .le + 1 ∧
    ∃ q, setRow (.setnle Prefixes.none (.reg 0)) = some q := ⟨by decide, by decide, _, rfl⟩

/-- A memory operand and AH. -/
theorem witness_SetccCompletes :
    (∃ q pl, setRow (.setng Prefixes.none atEbx) = some q ∧ flat.mem.wf = true ∧
      operandPlace q.pre q.rm 1 .write flat = .ok pl ∧ storable flat pl = true) ∧
    (∃ q pl, setRow (.setpo Prefixes.none (.reg 4)) = some q ∧ operandPlace q.pre q.rm 1 .write flat = .ok pl ∧
      storable flat pl = true) := by
  obtain ⟨pl, h1, h2⟩ := okWith_elim (x := operandPlace Prefixes.none atEbx 1 .write flat)
    (f := storable flat) (by decide +kernel)
  exact ⟨⟨_, pl, rfl, by decide +kernel, h1, h2⟩, ⟨_, _, rfl, rfl, rfl⟩⟩

/-- SGDT with either operand size. -/
theorem witness_DescriptorTableStoreCompletes :
    ∃ q m p, tableRow flat (.sgdt Prefixes.none atEbx) = some q ∧ q.rm = .mem m ∧ flat.mem.wf = true ∧
      access flat (memRef q.pre m flat) 6 .write = .ok p ∧ hitsProgram flat p = false ∧
      q.pre.operandSize flat.defaultSize = .s32 ∧
      (Prefixes.mk true false none).operandSize flat.defaultSize = .s16 := by
  obtain ⟨p, h1, h2⟩ := okWith_elim
    (x := access flat (memRef Prefixes.none (.a32 (.based 3 .none)) flat) 6 .write)
    (f := fun p => !hitsProgram flat p) (by decide +kernel)
  exact ⟨_, _, p, rfl, rfl, by decide +kernel, h1, by simpa using h2, rfl, rfl⟩

/-- SLDT with a 16-bit operand size in Protected Mode, SMSW in Real Address Mode. -/
theorem witness_SystemWordToRegister :
    (∃ q, systemRow flat (.sldt ⟨true, false, none⟩ (.reg 5)) = some q ∧ q.rm = .reg 5 ∧
      (q.protectedOnly = true → flat.mode = .prot) ∧ q.pre.operandSize flat.defaultSize = .s16) ∧
    (∃ q, systemRow real16 (.smsw Prefixes.none (.reg 0)) = some q ∧ q.rm = .reg 0 ∧
      (q.protectedOnly = true → real16.mode = .prot)) :=
  ⟨⟨_, rfl, rfl, fun _ => rfl, rfl⟩, ⟨_, rfl, rfl, nofun⟩⟩

theorem witness_SystemWordToMemory :
    ∃ q m p, systemRow flat (.str Prefixes.none atEbx) = some q ∧ q.rm = .mem m ∧
      (q.protectedOnly = true → flat.mode = .prot) ∧ flat.mem.wf = true ∧
      access flat (memRef q.pre m flat) 2 .write = .ok p ∧ hitsProgram flat p = false := by
  obtain ⟨p, h1, h2⟩ := okWith_elim
    (x := access flat (memRef Prefixes.none (.a32 (.based 3 .none)) flat) 2 .write)
    (f := fun p => !hitsProgram flat p) (by decide +kernel)
  exact ⟨_, _, p, rfl, rfl, fun _ => rfl, by decide +kernel, h1, by simpa using h2⟩

/-- SCAS of a doubleword with 32-bit addressing, and of a word at the last offset with 16-bit addressing. -/
theorem witness_ScasCompletes :
    (∃ q p, scasRow (.scasd Prefixes.none) = some q ∧
      access flat (stringRef (q.pre.addressSize flat.defaultSize) flat) q.w.bytes .read = .ok p) ∧
    (∃ q p, scasRow (.scasM16 Prefixes.none) = some q ∧
      access real16 (stringRef (q.pre.addressSize real16.defaultSize) real16) q.w.bytes .read = .ok p) := by
  obtain ⟨p, h1, -⟩ := okWith_elim (x := access flat (stringRef .s32 flat) 4 .read) (f := fun _ => true) (by decide +kernel)
  obtain ⟨p', h1', -⟩ := okWith_elim (x := access real16 (stringRef .s16 real16) 2 .read) (f := fun _ => true)
    (by decide +kernel)
  exact ⟨⟨_, p, rfl, h1⟩, ⟨_, p', rfl, h1'⟩⟩

/-- STOS of a doubleword with 32-bit addressing, and of a word at the last offset with 16-bit addressing. -/
theorem witness_StosCompletes :
    (∃ q p, stosRow (.stosM32 Prefixes.none) = some q ∧ flat.mem.wf = true ∧
      access flat (stringRef (q.pre.addressSize flat.defaultSize) flat) q.w.bytes .write = .ok p ∧
      hitsProgram flat p = false) ∧
    (∃ q p, stosRow (.stosw Prefixes.none) = some q ∧ real16.mem.wf = true ∧
      access real16 (stringRef (q.pre.addressSize real16.defaultSize) real16) q.w.bytes .write = .ok p ∧
      hitsProgram real16 p = false) := by
  obtain ⟨p, h1, h2⟩ := okWith_elim (x := access flat (stringRef .s32 flat) 4 .write)
    (f := fun p => !hitsProgram flat p) (by decide +kernel)
  obtain ⟨p', h1', h2'⟩ := okWith_elim (x := access real16 (stringRef .s16 real16) 2 .write)
    (f := fun p => !hitsProgram real16 p) (by decide +kernel)
  exact ⟨⟨_, p, rfl, by decide +kernel, h1, by simpa using h2⟩, ⟨_, p', rfl, by decide +kernel, h1', by simpa using h2'⟩⟩

end Sys2Proof.Tests
end

/-! PROOFS. `exec` by the rows of the opcode table, what every instruction hands to its completion, and the constants of a run (`00_scope.md`). -/

namespace Sys2Proof.Machine

open Sys2Proof

/-! ## The meaning of a row: one equation of `exec` for each shape -/

/-- A row of SUB or SBB as one operation: SRC is read, then DEST is read, modified and written (R160, R270). -/
def SubRow.run (q : SubRow) (L : Nat) (s : State) : Result :=
  match q.source s with
  | .error e => raise e s
  | .ok b => subFromRM q.op q.w L q.pre q.dest b s

/-- A register DEST is written without an access, so the read of SRC is all that can fail (R161, R271). -/
theorem subFromReg_eq_run (op : SubOp) (w : Width) (L : Nat) (p : Prefixes) (rm : RM) (r : BitVec 3) (s : State) :
    subFromReg op w L p rm r s = SubRow.run ⟨op, w, p, .reg r, .rm rm⟩ L s := by
  unfold subFromReg readRM SubRow.run SubRow.source
  dsimp only
  cases operandPlace p rm w.bytes .read s <;> rfl

theorem exec_of_subRow {i : Instr} {q : SubRow} (h : subRow i = some q) (s : State) :
    exec i s = q.run (instrLength i) s := by
  cases i with
  | sbbR8Rm8 | sbbR16Rm16 | sbbR32Rm32 | subR8Rm8 | subR16Rm16 | subR32Rm32 =>
    cases h; exact subFromReg_eq_run ..
  | sbbAlImm8 | sbbAxImm16 | sbbEaxImm32 | subAlImm8 | subAxImm16 | subEaxImm32 => cases h; rfl
  | sbbRm8Imm8 | sbbRm16Imm16 | sbbRm32Imm32 | sbbRm16Imm8 | sbbRm32Imm8
  | subRm8Imm8 | subRm16Imm16 | subRm32Imm32 | subRm16Imm8 | subRm32Imm8 => cases h; rfl
  | sbbRm8R8 | sbbRm16R16 | sbbRm32R32 | subRm8R8 | subRm16R16 | subRm32R32 => cases h; rfl
  | _ => cases h

theorem exec_of_shiftRow {i : Instr} {q : ShiftRow} (h : shiftRow i = some q) (s : State) :
    exec i s = shiftRM q.op q.count q.w (instrLength i) q.pre q.rm s := by
  unfold shiftRow at h
  split at h <;> cases h <;> rfl

theorem exec_of_doubleRow {i : Instr} {q : DoubleRow} (h : doubleRow i = some q) (s : State) :
    exec i s = doubleShiftRM q.op q.count q.w (instrLength i) q.pre q.rm q.reg s := by
  unfold doubleRow at h
  split at h <;> cases h <;> rfl

theorem exec_of_setRow {i : Instr} {q : SetRow} (h : setRow i = some q) (s : State) :
    exec i s = setByte q.cond (instrLength i) q.pre q.rm s := by
  unfold setRow at h
  split at h <;> cases h <;> rfl

theorem exec_of_scasRow {i : Instr} {q : StringRow} (h : scasRow i = some q) (s : State) :
    exec i s = scanString q.w (instrLength i) q.pre s := by
  unfold scasRow at h
  split at h <;> cases h <;> rfl

theorem exec_of_stosRow {i : Instr} {q : StringRow} (h : stosRow i = some q) (s : State) :
    exec i s = storeString q.w (instrLength i) q.pre s := by
  unfold stosRow at h
  split at h <;> cases h <;> rfl

theorem exec_of_tableRow {i : Instr} {q : TableRow} {s : State} (h : tableRow s i = some q) :
    exec i s = storeTable q.table (instrLength i) q.pre q.rm s := by
  unfold tableRow at h
  split at h <;> cases h <;> rfl

theorem exec_of_systemRow {i : Instr} {q : SystemRow} {s : State} (h : systemRow s i = some q) :
    exec i s = if q.protectedOnly = true ∧ s.mode ≠ .prot then raise .ud s
      else storeSystem q.value (instrLength i) q.pre q.rm s := by
  cases i with
  | sldt | str => cases h; exact (storeSystemProtected_eq ..).trans (by simp)
  | smsw => cases h; rfl
  | _ => cases h

/-- Where an instruction stands among the rows sorted by shape; `s` gives the system registers that are stored. -/
inductive RowOf (s : State) (i : Instr) : Prop where
  | sub (q : SubRow) (h : subRow i = some q)
  | shift (q : ShiftRow) (h : shiftRow i = some q)
  | double (q : DoubleRow) (h : doubleRow i = some q)
  | set (q : SetRow) (h : setRow i = some q)
  | scas (q : StringRow) (h : scasRow i = some q)
  | stos (q : StringRow) (h : stosRow i = some q)
  | table (q : TableRow) (h : tableRow s i = some q)
  | system (q : SystemRow) (h : systemRow s i = some q)
  | sahf (p : Prefixes) (h : i = .sahf p)
  | stc (p : Prefixes) (h : i = .stc p)
  | std (p : Prefixes) (h : i = .std p)
  | sti (p : Prefixes) (h : i = .sti p)

/-- The shapes are exhaustive. -/
theorem rowOf (s : State) (i : Instr) : RowOf s i := by
  cases i with
  | sahf p => exact .sahf p rfl
  | stc p => exact .stc p rfl
  | std p => exact .std p rfl
  | sti p => exact .sti p rfl
  | sgdt | sidt => exact .table _ rfl
  | sldt | smsw | str => exact .system _ rfl
  | scasM8 | scasM16 | scasM32 | scasb | scasw | scasd => exact .scas _ rfl
  | stosM8 | stosM16 | stosM32 | stosb | stosw | stosd => exact .stos _ rfl
  | shldRm16R16Imm8 | shldRm32R32Imm8 | shldRm16R16Cl | shldRm32R32Cl
  | shrdRm16R16Imm8 | shrdRm32R32Imm8 | shrdRm16R16Cl | shrdRm32R32Cl => exact .double _ rfl
  | salRm8One | salRm8Cl | salRm8Imm8 | salRm16One | salRm16Cl | salRm16Imm8 | salRm32One | salRm32Cl | salRm32Imm8
  | sarRm8One | sarRm8Cl | sarRm8Imm8 | sarRm16One | sarRm16Cl | sarRm16Imm8 | sarRm32One | sarRm32Cl | sarRm32Imm8
  | shlRm8One | shlRm8Cl | shlRm8Imm8 | shlRm16One | shlRm16Cl | shlRm16Imm8 | shlRm32One | shlRm32Cl | shlRm32Imm8
  | shrRm8One | shrRm8Cl | shrRm8Imm8 | shrRm16One | shrRm16Cl | shrRm16Imm8 | shrRm32One | shrRm32Cl | shrRm32Imm8 =>
    exact .shift _ rfl
  | sbbAlImm8 | sbbAxImm16 | sbbEaxImm32 | sbbRm8Imm8 | sbbRm16Imm16 | sbbRm32Imm32 | sbbRm16Imm8 | sbbRm32Imm8
  | sbbRm8R8 | sbbRm16R16 | sbbRm32R32 | sbbR8Rm8 | sbbR16Rm16 | sbbR32Rm32
  | subAlImm8 | subAxImm16 | subEaxImm32 | subRm8Imm8 | subRm16Imm16 | subRm32Imm32 | subRm16Imm8 | subRm32Imm8
  | subRm8R8 | subRm16R16 | subRm32R32 | subR8Rm8 | subR16Rm16 | subR32Rm32 => exact .sub _ rfl
  | seta | setae | setb | setbe | setc | sete | setg | setge | setl | setle | setna | setnae | setnb | setnbe | setnc
  | setne | setng | setnge | setnl | setnle | setno | setnp | setns | setnz | seto | setp | setpe | setpo | sets
  | setz => exact .set _ rfl

/-! ## What an instruction hands to its completion -/

/-- What the state `u` that an instruction other than STD and STI completes from shares with the state `s` before it: `pc`, DF, IF, the constants, and memory but for one store clear of `PROGRAM` (R84). -/
structure ReadyFrom (s u : State) : Prop where
  pc : u.pc = s.pc
  DF : u.flags.DF = s.flags.DF
  IF : u.flags.IF = s.flags.IF
  constants : SameConstants s u
  mem : u.mem = s.mem ∨ ∃ p bs, hitsProgram s p = false ∧ u.mem = s.mem.store p bs

theorem FlagsOnly.readyFrom {s u : State} (h : FlagsOnly s u) : ReadyFrom s u :=
  ⟨h.pc, h.DF, h.IF, h.constants, .inl h.mem⟩

/-- The flags may be set before the operand is written. -/
theorem FlagsOnly.trans_readyFrom {s t u : State} (h : FlagsOnly s t) (k : ReadyFrom t u) : ReadyFrom s u where
  pc := k.pc.trans h.pc
  DF := k.DF.trans h.DF
  IF := k.IF.trans h.IF
  constants := h.constants.trans k.constants
  mem := by simpa only [hitsProgram_congr h.constants, h.mem] using k.mem

/-- A register may be written, by a string instruction after its store. -/
theorem ReadyFrom.trans_regs {s t u : State} (h : ReadyFrom s t) (k : SameOtherwise t u) (hm : u.mem = t.mem) :
    ReadyFrom s u where
  pc := k.pc.trans h.pc
  DF := k.flags ▸ h.DF
  IF := k.flags ▸ h.IF
  constants := h.constants.trans k.constants
  mem := hm ▸ h.mem

theorem readyFrom_refl (s : State) : ReadyFrom s s := (flagsOnly_refl s).readyFrom

theorem readyFrom_writeReg (w : Width) (i : BitVec 3) (v : BitVec w.bits) (s : State) :
    ReadyFrom s (writeReg w i v s) :=
  (readyFrom_refl s).trans_regs (sameOtherwise_writeReg w i v s) rfl

theorem readyFrom_stepIndex {s t : State} (h : ReadyFrom s t) (z : Size) (k : Nat) : ReadyFrom s (stepIndex z k t) :=
  h.trans_regs (sameOtherwise_stepIndex z k t) (mem_stepIndex z k t)

theorem flagsOnly_drawn (s : State) : FlagsOnly s s.drawn := ⟨rfl, rfl, rfl, rfl, rfl, rfl, by constructor <;> rfl⟩

theorem flagsOnly_withFlags (s : State) (f : Flags) (hDF : f.DF = s.flags.DF) (hIF : f.IF = s.flags.IF) :
    FlagsOnly s (s.withFlags f) := ⟨rfl, rfl, rfl, rfl, hDF, hIF, by constructor <;> rfl⟩

theorem flagsOnly_afterImage (z : Size) (s : State) : FlagsOnly s (afterImage z s) := by
  cases z with
  | s16 => exact flagsOnly_drawn s
  | s32 => exact flagsOnly_refl s

theorem readyFrom_writeSystemReg (z : Size) (i : BitVec 3) (v : Half) (s : State) :
    ReadyFrom s (writeSystemReg z i v s) := by
  cases z with
  | s16 => exact readyFrom_writeReg ..
  | s32 => exact ⟨rfl, rfl, rfl, by constructor <;> rfl, .inl rfl⟩

theorem readyFrom_withMem {s : State} {p : List Dword} (hp : hitsProgram s p = false) (bs : List Byte) :
    ReadyFrom s (s.withMem (s.mem.store p bs)) :=
  ⟨rfl, rfl, rfl, (sameOtherwise_withMem s _).constants, .inr ⟨p, bs, hp, rfl⟩⟩

theorem readyFrom_storeBytes {p : List Dword} {bs : List Byte} {s u : State} (h : storeBytes p bs s = .ok u) :
    ReadyFrom s u := by
  rw [storeBytes_eq] at h
  split at h
  case isTrue => cases h
  case isFalse hp => cases h; exact readyFrom_withMem (by simpa using hp) bs

theorem readyFrom_writePlace {w : Width} {pl : Place} {v : BitVec w.bits} {s u : State}
    (h : writePlace w pl v s = .ok u) : ReadyFrom s u := by
  cases pl with
  | reg i => cases h; exact readyFrom_writeReg ..
  | mem p => exact readyFrom_storeBytes h

/-! ## Results that complete from such a state -/

/-- A result that goes on, if at all, by completing an instruction of length `L` from a state ready from `s`. -/
def RetiresFrom (s : State) (L : Nat) (r : Result) : Prop :=
  ∀ t, r = .next t → ∃ u, ReadyFrom s u ∧ t = u.retire L

theorem retiresFrom_raise (s : State) (L : Nat) (e : Exc) : RetiresFrom s L (raise e s) := by
  rintro t ⟨⟩

theorem retiresFrom_refused (s : State) (L : Nat) (r : Refusal) : RetiresFrom s L (.refused r) := by
  rintro t ⟨⟩

theorem ReadyFrom.retiresFrom {s u : State} (h : ReadyFrom s u) (L : Nat) : RetiresFrom s L (.next (u.retire L)) := by
  rintro _ ⟨⟩
  exact ⟨u, h, rfl⟩

theorem retiresFrom_commit {s : State} {L : Nat} {r : Except Refusal State} (h : ∀ u, r = .ok u → ReadyFrom s u) :
    RetiresFrom s L (commit L r) := by
  cases r with
  | error e => exact retiresFrom_refused s L e
  | ok u => exact (h u rfl).retiresFrom L

/-- A read-modify-write whose function sets flags only (R68). -/
theorem retiresFrom_updateRM (w : Width) (L : Nat) (p : Prefixes) (rm : RM)
    {f : BitVec w.bits → State → Option (BitVec w.bits) × State} {s : State} (hf : ∀ a, FlagsOnly s (f a s).2) :
    RetiresFrom s L (updateRM w L p rm f s) := by
  rcases updateRM_cases w L p rm f s with ⟨e, _, h⟩ | ⟨pl, _, _, h⟩ | ⟨pl, v, _, _, h⟩ <;> rw [h]
  · exact retiresFrom_raise s L e
  · exact (hf _).readyFrom.retiresFrom L
  · exact retiresFrom_commit fun u hu => (hf _).trans_readyFrom (readyFrom_writePlace hu)

theorem retiresFrom_writeRM (w : Width) (L : Nat) (p : Prefixes) (rm : RM) (v : BitVec w.bits) (s : State) :
    RetiresFrom s L (writeRM w L p rm v s) := by
  rcases writeRM_cases w L p rm v s with ⟨e, _, h⟩ | ⟨pl, _, h⟩ <;> rw [h]
  · exact retiresFrom_raise s L e
  · exact retiresFrom_commit fun u hu => readyFrom_writePlace hu

theorem retiresFrom_subRow (q : SubRow) (L : Nat) (s : State) : RetiresFrom s L (q.run L s) := by
  unfold SubRow.run
  cases q.source s with
  | error e => exact retiresFrom_raise s L e
  | ok b => exact retiresFrom_updateRM _ _ _ _ fun a => withSubFlags_flagsOnly a b _ s

theorem retiresFrom_scanString (w : Width) (L : Nat) (p : Prefixes) (s : State) :
    RetiresFrom s L (scanString w L p s) := by
  rcases scanString_cases w L p s with ⟨e, _, h⟩ | ⟨a, _, h⟩ <;> rw [h]
  · exact retiresFrom_raise s L e
  · exact (readyFrom_stepIndex (withSubFlags_flagsOnly _ _ false s).readyFrom _ _).retiresFrom L

theorem retiresFrom_storeString (w : Width) (L : Nat) (p : Prefixes) (s : State) :
    RetiresFrom s L (storeString w L p s) := by
  rcases storeString_cases w L p s with ⟨e, _, h⟩ | ⟨a, _, _, h⟩ | ⟨a, _, hp, h⟩ <;> rw [h]
  · exact retiresFrom_raise s L e
  · exact retiresFrom_refused s L _
  · exact (readyFrom_stepIndex (readyFrom_withMem hp _) _ _).retiresFrom L

theorem retiresFrom_storeTable (d : DescTable) (L : Nat) (p : Prefixes) (rm : RM) (s : State) :
    RetiresFrom s L (storeTable d L p rm s) := by
  rcases storeTable_cases d L p rm s with ⟨i, _, h⟩ | ⟨m, e, _, _, h⟩ | ⟨m, a, _, _, h⟩ <;> rw [h]
  · exact retiresFrom_raise s L _
  · exact retiresFrom_raise s L e
  · exact retiresFrom_commit fun u hu => (flagsOnly_afterImage _ s).trans_readyFrom (readyFrom_storeBytes hu)

theorem retiresFrom_storeSystem (v : Half) (L : Nat) (p : Prefixes) (rm : RM) (s : State) :
    RetiresFrom s L (storeSystem v L p rm s) := by
  rcases storeSystem_cases v L p rm s with ⟨i, _, h⟩ | ⟨m, e, _, _, h⟩ | ⟨m, a, _, _, h⟩ <;> rw [h]
  · exact (readyFrom_writeSystemReg _ i v s).retiresFrom L
  · exact retiresFrom_raise s L e
  · exact retiresFrom_commit fun u hu => readyFrom_storeBytes hu

theorem exec_sti (p : Prefixes) (s : State) :
    exec (.sti p) s = if stiFaults s then raise .gp0 s
      else .next ((s.withFlags { s.flags with IF := true }).retireShadowed (instrLength (.sti p))) := rfl

/-- Every instruction but STD and STI completes, if it does, from a state ready from the one before it. -/
theorem exec_retiresFrom {i : Instr} (hstd : ∀ p, i ≠ .std p) (hsti : ∀ p, i ≠ .sti p) (s : State) :
    RetiresFrom s (instrLength i) (exec i s) := by
  cases rowOf s i with
  | sub q h => rw [exec_of_subRow h]; exact retiresFrom_subRow q _ s
  | shift q h =>
    rw [exec_of_shiftRow h]
    exact retiresFrom_updateRM _ _ _ _ fun a => shiftOperand_flagsOnly _ _ a s
  | double q h =>
    rw [exec_of_doubleRow h]
    exact retiresFrom_updateRM _ _ _ _ fun a => doubleOperand_flagsOnly _ _ _ a s
  | set q h => rw [exec_of_setRow h]; exact retiresFrom_writeRM _ _ _ _ _ s
  | scas q h => rw [exec_of_scasRow h]; exact retiresFrom_scanString _ _ _ s
  | stos q h => rw [exec_of_stosRow h]; exact retiresFrom_storeString _ _ _ s
  | table q h => rw [exec_of_tableRow h]; exact retiresFrom_storeTable _ _ _ _ s
  | system q h =>
    rw [exec_of_systemRow h]
    split
    · exact retiresFrom_raise s _ _
    · exact retiresFrom_storeSystem _ _ _ _ s
  | sahf p h =>
    subst h
    exact (flagsOnly_withFlags s (flagsOfAH (readReg .w8 4 s) s.flags) rfl rfl).readyFrom.retiresFrom _
  | stc p h =>
    subst h
    exact (flagsOnly_withFlags s { s.flags with CF := true } rfl rfl).readyFrom.retiresFrom _
  | std p h => exact absurd h (hstd p)
  | sti p h => exact absurd h (hsti p)

/-- Every way an instruction can complete: STD and STI set their flag, every other one completes from a state ready from the one before it. -/
theorem exec_next {i : Instr} {s t : State} (h : exec i s = .next t) :
    (∃ p, i = .std p ∧ t = (s.withFlags { s.flags with DF := true }).retire (instrLength i)) ∨
    (∃ p, i = .sti p ∧ t = (s.withFlags { s.flags with IF := true }).retireShadowed (instrLength i)) ∨
    ((∀ p, i ≠ .std p) ∧ (∀ p, i ≠ .sti p) ∧ ∃ u, ReadyFrom s u ∧ t = u.retire (instrLength i)) := by
  by_cases hstd : ∃ p, i = .std p
  · obtain ⟨p, rfl⟩ := hstd
    cases h
    exact .inl ⟨p, rfl, rfl⟩
  by_cases hsti : ∃ p, i = .sti p
  · obtain ⟨p, rfl⟩ := hsti
    rw [exec_sti] at h
    split at h <;> cases h
    exact .inr (.inl ⟨p, rfl, rfl⟩)
  push Not at hstd hsti
  exact .inr (.inr ⟨hstd, hsti, exec_retiresFrom hstd hsti s t h⟩)

/-! ## The constants of a run -/

theorem sameConstants_withFlags (s : State) (f : Flags) : SameConstants s (s.withFlags f) := by constructor <;> rfl

theorem sameConstants_retire (s : State) (L : Nat) : SameConstants s (s.retire L) := by constructor <;> rfl

theorem sameConstants_retireShadowed (s : State) (L : Nat) : SameConstants s (s.retireShadowed L) := by
  constructor <;> rfl

theorem exec_keeps_constants {i : Instr} {s t : State} (h : exec i s = .next t) : SameConstants s t := by
  rcases exec_next h with ⟨p, _, rfl⟩ | ⟨p, _, rfl⟩ | ⟨_, _, u, hu, rfl⟩
  · exact (sameConstants_withFlags s _).trans (sameConstants_retire _ _)
  · exact (sameConstants_withFlags s _).trans (sameConstants_retireShadowed _ _)
  · exact hu.constants.trans (sameConstants_retire u _)

/-- A step that goes on executed an instruction (R325). -/
theorem step_next {s t : State} (h : step s = .next t) : ∃ i, exec i s = .next t := by
  unfold step at h
  split at h
  · split at h
    · cases h
    · exact ⟨_, h⟩
  · split at h <;> cases h

/-- Settles O28: a step that goes on executes an instruction, and no completion of one touches the constants. -/
theorem stepKeepsConstants : Obligations.StepKeepsConstants := by
  intro s t h
  obtain ⟨i, hi⟩ := step_next h
  exact exec_keeps_constants hi

end Sys2Proof.Machine

/-! PROOFS. `pc`, DF and IF after an instruction, the invariant, the register views, parity and subtraction (`10_state.md`). -/

namespace Sys2Proof.Machine

open Sys2Proof

/-! ## What a completed instruction leaves of `pc`, DF, IF and memory -/

/-- Settles O32: whichever of the three ways an instruction completes, it advances `pc` by its own length. -/
theorem pcAdvancesByLength : Obligations.PcAdvancesByLength := by
  intro i s t h
  rcases exec_next h with ⟨p, _, rfl⟩ | ⟨p, _, rfl⟩ | ⟨_, _, u, hu, rfl⟩
  · simp [toNat_advance]
  · simp [toNat_advance]
  · simp [toNat_advance, hu.pc, hu.constants.defaultSize]

/-- Settles O29: STD and STI set their own flag, and every other instruction completes with DF and IF as they were. -/
theorem directionAndInterruptFlags : Obligations.DirectionAndInterruptFlags := by
  intro i s t h
  rcases exec_next h with ⟨p, rfl, rfl⟩ | ⟨p, rfl, rfl⟩ | ⟨hstd, hsti, u, hu, rfl⟩
  · simp
  · simp
  · simp [hu.DF, hu.IF, hstd, hsti]

/-- A completed instruction left memory alone or made one store clear of `PROGRAM` (R84). -/
theorem exec_next_mem {i : Instr} {s t : State} (h : exec i s = .next t) :
    t.mem = s.mem ∨ ∃ p bs, hitsProgram s p = false ∧ t.mem = s.mem.store p bs := by
  rcases exec_next h with ⟨p, _, rfl⟩ | ⟨p, _, rfl⟩ | ⟨_, _, u, hu, rfl⟩
  · exact .inl rfl
  · exact .inl rfl
  · exact hu.mem

/-! ## The invariant -/

theorem codeSpan_pos (z : Size) : 0 < codeSpan z := by
  cases z <;> simp [codeSpan]

/-- A store that hits no byte of `PROGRAM` names the location of none of them. -/
theorem programLocation_ne_of_not_hits {s : State} {p : List Dword} (hp : hitsProgram s p = false) {k : Nat}
    {a : Dword} (hk : k < s.program.bytes.length) (ha : programLocation s k = some a) :
    ∀ q ∈ p, q.toNat ≠ a.toNat := by
  intro q hq e
  have hmem : a ∈ programLocations s := List.mem_filterMap.2 ⟨k, List.mem_range.2 hk, ha⟩
  have hhit : hitsProgram s p = true :=
    List.any_eq_true.2 ⟨q, hq, by simpa [BitVec.eq_of_toNat_eq e] using hmem⟩
  simp [hp] at hhit

/-- `PROGRAM` stays in memory where the constants stay and each of its bytes reads as before. -/
theorem ProgramInMemory.congr {s t : State} (h : ProgramInMemory s) (hc : SameConstants s t)
    (hread : ∀ k a, k < s.program.bytes.length → programLocation s k = some a →
      t.mem.read a.toNat = s.mem.read a.toNat) : ProgramInMemory t := by
  intro k hk
  rw [hc.program] at hk ⊢
  obtain ⟨a, ha, hb⟩ := h k hk
  exact ⟨a, (programLocation_congr hc k).trans ha, by rw [hread k a hk ha, hb]⟩

theorem exec_keeps_inv {i : Instr} {s t : State} (hs : Inv s) (h : exec i s = .next t) : Inv t := by
  have hc := exec_keeps_constants h
  have hpc : t.pc.toNat < codeSpan t.defaultSize := by
    rw [pcAdvancesByLength i s t h, hc.defaultSize]
    exact Nat.mod_lt _ (codeSpan_pos _)
  rcases exec_next_mem h with hm | ⟨p, bs, hp, hm⟩
  · exact ⟨hm ▸ hs.wf, hs.program.congr hc fun _ _ _ _ => by rw [hm], hpc⟩
  · refine ⟨hm ▸ Memory.wf_store p bs s.mem hs.wf, hs.program.congr hc fun k a hk ha => ?_, hpc⟩
    rw [hm]
    exact Memory.read_store_other p bs s.mem hs.wf _ (programLocation_ne_of_not_hits hp hk ha)

/-- Settles O26: a step that goes on executed an instruction, and every instruction keeps the invariant. -/
theorem stepKeepsInvariant : Obligations.StepKeepsInvariant := by
  intro s t hs h
  obtain ⟨i, hi⟩ := step_next h
  exact exec_keeps_inv hs hi

/-! ## Register views and parity -/

/-- Settles O12: a view of the whole register is the register; the narrower ones are views by definition. -/
theorem registerViews : Obligations.RegisterViews :=
  fun _ => ⟨fun _ => BitVec.extractLsb'_eq_self, fun _ => rfl, rfl, rfl, rfl, rfl, rfl, rfl, rfl, rfl⟩

theorem onesBelow_eq_countP {n : Nat} (r : BitVec n) (k : Nat) :
    onesBelow r k = (List.range k).countP fun j => r.getLsbD j := by
  induction k with
  | zero => rfl
  | succ k ih =>
    rw [onesBelow, ih, List.range_succ, List.countP_append, List.countP_singleton]
    cases r.getLsbD k <;> rfl

/-- Settles O13: the model's count of ones is the count over the range of positions. -/
theorem parityOfLowByte : Obligations.ParityOfLowByte := by
  refine ⟨fun n r => ?_, rfl, rfl, rfl, rfl, rfl⟩
  rw [parity8, onesBelow_eq_countP, beq_iff_eq]

/-! ## Subtraction -/

section

variable {n : Nat} (a b : BitVec n) (c : Bool) (f : Flags)

/-- The result as a number (R34). -/
theorem toNat_subResult : ((subResult a b c).toNat : Int) = exactDiff a b c % 2 ^ n := by
  have h : (0 : Int) < 2 ^ n := by positivity
  rw [subResult, BitVec.toNat_ofInt, Int.toNat_of_nonneg (Int.emod_nonneg _ (by exact_mod_cast h.ne'))]
  norm_cast

/-- The result is the exact difference, raised by 2^n where there is a borrow. -/
theorem toNat_subResult_cases :
    (0 ≤ exactDiff a b c ∧ ((subResult a b c).toNat : Int) = exactDiff a b c) ∨
    (exactDiff a b c < 0 ∧ ((subResult a b c).toNat : Int) = exactDiff a b c + 2 ^ n) := by
  have ha : (a.toNat : Int) < 2 ^ n := by exact_mod_cast a.isLt
  have hb : (b.toNat : Int) < 2 ^ n := by exact_mod_cast b.isLt
  have hc := Bool.toNat_le c
  rw [toNat_subResult]
  unfold exactDiff
  rcases lt_or_ge ((a.toNat : Int) - b.toNat - c.toNat) 0 with h | h
  · refine .inr ⟨h, ?_⟩
    rw [← Int.add_emod_right, Int.emod_eq_of_lt] <;> omega
  · exact .inl ⟨h, Int.emod_eq_of_lt h (by omega)⟩

/-- Adding SRC and the borrow to the result gives DEST back, and carries out of the width where there was a borrow. -/
theorem toNat_subResult_add :
    (subResult a b c).toNat + b.toNat + c.toNat = a.toNat ∨
    (subResult a b c).toNat + b.toNat + c.toNat = a.toNat + 2 ^ n := by
  zify
  rcases toNat_subResult_cases a b c with ⟨_, h⟩ | ⟨_, h⟩ <;> rw [h, exactDiff] <;> omega

theorem subResult_add : subResult a b c + b + BitVec.setWidth n (BitVec.ofBool c) = a := by
  apply BitVec.eq_of_toNat_eq
  simp only [BitVec.toNat_add, BitVec.toNat_setWidth, BitVec.toNat_ofBool, ← Nat.add_mod]
  rcases toNat_subResult_add a b c with h | h <;> simp [h, Nat.mod_eq_of_lt a.isLt]

theorem subFlags_CF_iff : (subFlags a b c f).CF = true ↔ a.toNat < b.toNat + c.toNat := by
  simp only [subFlags, decide_eq_true_eq]
  unfold exactDiff
  omega

/-- AF is the carry into bit 4 when SRC and the borrow are added back, which is bit 4 of `a xor b xor r` (R34). -/
theorem subFlags_AF_eq (hn : 4 < n) : (subFlags a b c f).AF = (a ^^^ b ^^^ subResult a b c).getLsbD 4 := by
  have hbit := BitVec.getLsbD_add_add_bool hn (subResult a b c) b c
  rw [subResult_add] at hbit
  have hborrow : (subFlags a b c f).AF = BitVec.carry 4 (subResult a b c) b c := by
    obtain ⟨k, rfl⟩ := Nat.exists_eq_add_of_le hn.le
    have hadd := toNat_subResult_add a b c
    rw [pow_add] at hadd
    simp only [subFlags, BitVec.carry, decide_eq_decide]
    omega
  simp only [BitVec.getLsbD_xor, hbit, hborrow]
  simp [Bool.xor_comm, Bool.xor_left_comm]

/-- OF by the signs: the operands have different ones, and the result has not that of DEST (R34). -/
theorem subFlags_OF_iff (hn : 0 < n) :
    (subFlags a b c f).OF = true ↔ a.msb ≠ b.msb ∧ (subResult a b c).msb ≠ a.msb := by
  obtain ⟨k, rfl⟩ : ∃ k, n = k + 1 := ⟨n - 1, by omega⟩
  have hadd := toNat_subResult_add a b c
  have hr := (subResult a b c).isLt
  have ha := a.isLt
  have hb := b.isLt
  have hc := Bool.toNat_le c
  have hcast : (2 : Int) ^ k = (2 ^ k : Nat) := by norm_cast
  simp only [subFlags, decide_eq_true_eq, BitVec.toInt_eq_msb_cond, BitVec.msb_eq_decide, ne_eq, decide_eq_decide,
    Nat.add_sub_cancel, hcast]
  rw [pow_succ] at hadd hr ha hb ⊢
  split <;> split <;> omega

/-- The flags of a subtraction meet the rule (R34). -/
theorem subFlagsRule_subFlags : SubFlagsRule a b c (subResult a b c) f (subFlags a b c f) where
  CF := by simp [subFlags, exactDiff]
  AF := by simp [subFlags]
  OF := by simp only [subFlags, decide_eq_true_eq]; omega
  SF := BitVec.msb_eq_getLsbD_last _
  ZF := by simp [subFlags, ← BitVec.toNat_inj]
  PF := rfl
  DF := rfl
  IF := rfl

end

/-- Settles O14: the rule's formulas hold at every width, its equivalents at every width above 4. -/
theorem subtractionFormulas : Obligations.SubtractionFormulas := by
  intro w a b c f
  have hw : 4 < w.bits := by cases w <;> decide
  exact ⟨toNat_subResult a b c, subFlagsRule_subFlags a b c f, subFlags_CF_iff a b c f, subFlags_AF_eq a b c f hw,
    subFlags_OF_iff a b c f (by omega)⟩

end Sys2Proof.Machine

/-! PROOFS. How many bytes the decoder uses: those of the encoding of what it answers (`30_encoding.md` rules R90, R104). -/

namespace Sys2Proof

/-! ## Prefixes and fields -/

theorem length_encodePrefixes (p : Prefixes) :
    (encodePrefixes p).length = p.opsize.toNat + p.addrsize.toNat + p.seg.isSome.toNat := by
  obtain ⟨o, a, g⟩ := p
  have hseg : (encodePrefixes ⟨false, false, g⟩).length = g.isSome.toNat := by
    rcases g with _ | g
    · rfl
    · cases g <;> rfl
  rw [← hseg]
  cases o <;> cases a <;> simp [encodePrefixes] <;> omega

theorem length_of_decodePrefixes {p q : Prefixes} {bs rest : List Byte} (h : decodePrefixes p bs = .ok (q, rest)) :
    (encodePrefixes p).length + bs.length = (encodePrefixes q).length + rest.length := by
  simp only [length_encodePrefixes]
  induction bs generalizing p with
  | nil => cases h
  | cons b bs ih =>
    rw [decodePrefixes] at h
    split at h
    case h_1 => cases h; rfl
    case h_2 | h_3 => cases h
    all_goals
      split at h
      case isTrue => cases h
      case isFalse hp =>
        have hlen := ih h
        rw [Bool.not_eq_true] at hp
        simp only [hp, Bool.toNat_true, Bool.toNat_false, Option.isSome_some, List.length_cons] at hlen ⊢
        omega

theorem length_of_decodeField {n : Nat} {bs rest : List Byte} {v : BitVec n} (h : decodeField n bs = .ok (v, rest)) :
    bs.length = n / 8 + rest.length := by
  unfold decodeField at h
  split at h
  · cases h
  · next l _ hl =>
    cases h
    obtain ⟨rfl, hlen⟩ := takeBytes_ok hl
    simp [hlen]

theorem length_of_decodeDisp {n : Nat} {md : BitVec 2} {bs rest : List Byte} {d : Disp n}
    (h : decodeDisp n md bs = .ok (d, rest)) : bs.length = d.encode.length + rest.length := by
  unfold decodeDisp at h
  split at h
  · cases h; simp [Disp.encode]
  all_goals
    split at h
    · cases h
    · next hv => cases h; simpa [Disp.encode] using length_of_decodeField hv

/-! ## The ModRM operand -/

/-- The bytes of a ModRM operand: its own byte and, for memory, a SIB byte and a displacement (R94, R98, R99, R100). -/
def RM.size (rm : RM) : Nat := (encodeRM 0 rm).length

theorem length_encodeRM (reg : BitVec 3) (rm : RM) : (encodeRM reg rm).length = rm.size := by
  unfold RM.size encodeRM
  split <;> rfl

section

variable (v : Half) (w : Dword) (b : Base16) (r : BitVec 3) (x : Index) (d : Disp 16) (e : Disp 32)

theorem RM.size_reg : (RM.reg r).size = 1 := rfl

theorem RM.size_direct16 : (RM.mem (.a16 (.direct v))).size = 3 := rfl

theorem RM.size_based16 : (RM.mem (.a16 (.based b d))).size = d.encode.length + 1 := rfl

theorem RM.size_direct32 : (RM.mem (.a32 (.direct w))).size = 5 := rfl

theorem RM.size_based32 : (RM.mem (.a32 (.based r e))).size = e.encode.length + 1 := rfl

theorem RM.size_sib : (RM.mem (.a32 (.sib r x e))).size = e.encode.length + 2 := rfl

theorem RM.size_sibNoBase : (RM.mem (.a32 (.sibNoBase x w))).size = 6 := rfl

end

theorem size_of_decodeMem16 {md : BitVec 2} {r : BitVec 3} {bs rest : List Byte} {m : Mem16}
    (h : decodeMem16 md r bs = .ok (m, rest)) : bs.length + 1 = (RM.mem (.a16 m)).size + rest.length := by
  unfold decodeMem16 at h
  split at h <;> split at h
  · cases h
  · next hv => cases h; rw [length_of_decodeField hv, RM.size_direct16]; omega
  · cases h
  · next hd => cases h; rw [length_of_decodeDisp hd, RM.size_based16]; omega

theorem size_of_decodeSib {md : BitVec 2} {bs rest : List Byte} {m : Mem32}
    (h : decodeSib md bs = .ok (m, rest)) : bs.length + 1 = (RM.mem (.a32 m)).size + rest.length := by
  cases bs with
  | nil => cases h
  | cons b bs =>
    rw [decodeSib] at h
    split at h
    · cases h
    split at h <;> split at h
    · cases h
    · next hv => cases h; rw [List.length_cons, length_of_decodeField hv, RM.size_sibNoBase]; omega
    · cases h
    · next hd => cases h; rw [List.length_cons, length_of_decodeDisp hd, RM.size_sib]; omega

theorem size_of_decodeMem32 {md : BitVec 2} {r : BitVec 3} {bs rest : List Byte} {m : Mem32}
    (h : decodeMem32 md r bs = .ok (m, rest)) : bs.length + 1 = (RM.mem (.a32 m)).size + rest.length := by
  unfold decodeMem32 at h
  split at h
  · exact size_of_decodeSib h
  split at h <;> split at h
  · cases h
  · next hv => cases h; rw [length_of_decodeField hv, RM.size_direct32]; omega
  · cases h
  · next hd => cases h; rw [length_of_decodeDisp hd, RM.size_based32]; omega

theorem size_of_decodeMem {z : Size} {md : BitVec 2} {r : BitVec 3} {bs rest : List Byte} {m : MemOperand}
    (h : decodeMem z md r bs = .ok (m, rest)) : bs.length + 1 = (RM.mem m).size + rest.length := by
  cases z <;> simp only [decodeMem] at h <;> split at h
  · cases h
  · next hm => cases h; exact size_of_decodeMem16 hm
  · cases h
  · next hm => cases h; exact size_of_decodeMem32 hm

theorem size_of_decodeRM {z : Size} {bs rest : List Byte} {rm : RM} {r : BitVec 3}
    (h : decodeRM z bs = .ok (rm, r, rest)) : bs.length = rm.size + rest.length := by
  cases bs with
  | nil => cases h
  | cons b bs =>
    rw [decodeRM] at h
    split at h
    · cases h; rw [RM.size_reg, List.length_cons, Nat.add_comm]
    split at h
    · cases h
    · next hm => cases h; exact size_of_decodeMem hm

/-! ## Rows -/

/-- The instructions that a row makes are encoded as the prefixes, the opcode bytes `op`, and the operands that the row's form asks for, with `digit` as the `reg` field where no register stands there (R105, R106). -/
def RowForm.EncodesAs (op : List Byte) (digit : BitVec 3) : RowForm → Prop
  | .plain mk => ∀ p, encode (mk p) = encodePrefixes p ++ op
  | .imm n mk => ∀ p v, encode (mk p v) = encodePrefixes p ++ (op ++ toBytes (n / 8) v)
  | .modrm mk => ∀ p rm, encode (mk p rm) = encodePrefixes p ++ (op ++ encodeRM digit rm)
  | .rmImm n mk => ∀ p rm v,
    encode (mk p rm v) = encodePrefixes p ++ (op ++ encodeRM digit rm ++ toBytes (n / 8) v)
  | .rmReg mk => ∀ p rm r, encode (mk p rm r) = encodePrefixes p ++ (op ++ encodeRM r rm)
  | .rmRegImm8 mk => ∀ p rm r v, encode (mk p rm r v) = encodePrefixes p ++ (op ++ encodeRM r rm ++ toBytes 1 v)

/-- The same of every row that an opcode stands for; a `reg` field that is not used is encoded as 0 (R103). -/
def OpcodeRow.EncodesAs (op : List Byte) : OpcodeRow → Prop
  | .found f => f.EncodesAs op 0
  | .digits f => ∀ d g, f d = some g → g.EncodesAs op d

theorem oneByteOpcode_encodesAs {z : Size} {b : Byte} {row : OpcodeRow} (h : oneByteOpcode z b = some row) :
    row.EncodesAs [b] := by
  unfold oneByteOpcode at h
  split at h <;> cases h
  -- the opcodes with a digit
  case h_13 | h_14 | h_15 | h_21 | h_22 | h_23 | h_24 | h_25 | h_26 =>
    intro d f hf
    dsimp only at hf
    split at hf <;> cases hf <;> cases z
    all_goals
      dsimp only [pick, RowForm.EncodesAs]
      intros
      rfl
  all_goals
    cases z
    all_goals
      dsimp only [OpcodeRow.EncodesAs, pick, RowForm.EncodesAs]
      intros
      rfl

theorem twoByteOpcode_encodesAs {z : Size} {b : Byte} {row : OpcodeRow} (h : twoByteOpcode z b = some row) :
    row.EncodesAs [0x0F#8, b] := by
  unfold twoByteOpcode at h
  split at h <;> cases h
  -- the opcodes with a digit
  case h_1 | h_2 =>
    intro d f hf
    dsimp only at hf
    split at hf <;> cases hf
    all_goals exact fun _ _ => rfl
  all_goals
    cases z
    all_goals
      dsimp only [OpcodeRow.EncodesAs, pick, RowForm.EncodesAs]
      intros
      rfl

theorem decodeOpcode_encodesAs {z : Size} {bs rest : List Byte} {row : OpcodeRow}
    (h : decodeOpcode z bs = .ok (row, rest)) : ∃ op, bs = op ++ rest ∧ row.EncodesAs op := by
  unfold decodeOpcode at h
  split at h
  · cases h
  split at h
  · next hb =>
    subst hb
    split at h
    · cases h
    · split at h <;> cases h
      next hrow => exact ⟨_, rfl, twoByteOpcode_encodesAs hrow⟩
  · split at h <;> cases h
    next hrow => exact ⟨_, rfl, oneByteOpcode_encodesAs hrow⟩

theorem OpcodeRow.EncodesAs.form {op : List Byte} {row : OpcodeRow} (hrow : row.EncodesAs op) {bs : List Byte}
    {f : RowForm} (h : row.form bs = .ok f) : ∃ d, f.EncodesAs op d := by
  unfold OpcodeRow.form at h
  split at h
  · cases h; exact ⟨0, hrow⟩
  · cases h
  · split at h <;> cases h
    next hf => exact ⟨_, hrow _ _ hf⟩

/-- The operands that a row reads are as long as those that its instructions are encoded with. -/
theorem RowForm.EncodesAs.length_operands {op : List Byte} {d : BitVec 3} {f : RowForm} (hf : f.EncodesAs op d)
    {p : Prefixes} {z : Size} {bs rest : List Byte} {i : Instr} (h : f.operands p z bs = .ok (i, rest)) :
    (encodePrefixes p).length + op.length + bs.length = instrLength i + rest.length := by
  cases f with
  | plain mk =>
    cases h
    rw [instrLength, hf p, List.length_append]
  | imm n mk =>
    rw [operands] at h
    split at h <;> cases h
    next hv =>
      rw [length_of_decodeField hv, instrLength, hf p _]
      simp only [List.length_append, length_toBytes]
      omega
  | modrm mk =>
    rw [operands] at h
    split at h <;> cases h
    next hrm =>
      rw [size_of_decodeRM hrm, instrLength, hf p _]
      simp only [List.length_append, length_encodeRM]
      omega
  | rmReg mk =>
    rw [operands] at h
    split at h <;> cases h
    next hrm =>
      rw [size_of_decodeRM hrm, instrLength, hf p _ _]
      simp only [List.length_append, length_encodeRM]
      omega
  | rmImm n mk =>
    rw [operands] at h
    split at h
    · cases h
    next hrm =>
      split at h <;> cases h
      next hv =>
        rw [size_of_decodeRM hrm, length_of_decodeField hv, instrLength, hf p _ _]
        simp only [List.length_append, length_encodeRM, length_toBytes]
        omega
  | rmRegImm8 mk =>
    rw [operands] at h
    split at h
    · cases h
    next hrm =>
      split at h <;> cases h
      next hv =>
        rw [size_of_decodeRM hrm, length_of_decodeField hv, instrLength, hf p _ _ _]
        simp only [List.length_append, length_encodeRM, length_toBytes]
        omega

/-- The decoder uses as many bytes as the instruction it answers is long (R104). -/
theorem length_of_decode {dflt : Size} {bs rest : List Byte} {i : Instr} (h : decode dflt bs = .ok (i, rest)) :
    bs.length = instrLength i + rest.length := by
  unfold decode at h
  split at h
  · cases h
  next hp =>
    split at h
    · cases h
    next hop =>
      split at h
      · cases h
      next hform =>
        have hpre := length_of_decodePrefixes hp
        obtain ⟨op, rfl, hrow⟩ := decodeOpcode_encodesAs hop
        obtain ⟨d, hf⟩ := hrow.form hform
        have hrest := hf.length_operands h
        rw [List.length_append, show (encodePrefixes Prefixes.none).length = 0 from rfl] at hpre
        omega

theorem instrLength_pos (i : Instr) : 0 < instrLength i := by
  obtain ⟨b, rest, h, _⟩ := encodeBody_head i
  simp [instrLength, encode, h]

end Sys2Proof

/-! PROOFS. How a run ends (`70_reset_and_hazards.md` rule R325). -/

namespace Sys2Proof.Machine

open Sys2Proof

/-- Settles O24: the three branches of a step in which nothing is executed. -/
theorem runEndings : Obligations.RunEndings := by
  intro s
  refine ⟨fun hin hpast => ?_, fun hin hpast => ?_, fun e hin he => ?_⟩
  · simp [step, hin, hpast]
  · simp [step, hin, hpast]
  · simp [step, hin, he]

/-- A step that goes on decoded an instruction inside `PROGRAM` and executed it (R325). -/
theorem step_next_decoded {s t : State} (h : step s = .next t) :
    insideProgram s = true ∧ ∃ i rest, decode s.defaultSize (fetchBytes s) = .ok (i, rest) ∧ exec i s = .next t := by
  unfold step at h
  split at h
  · next hin =>
    split at h
    · cases h
    · next i rest hi => exact ⟨hin, i, rest, hi, h⟩
  · split at h <;> cases h

theorem insideProgram_iff (s : State) : insideProgram s = true ↔
    s.program.start.toNat ≤ s.pc.toNat ∧ s.pc.toNat < s.program.start.toNat + s.program.bytes.length := by
  simp [insideProgram]

theorem length_fetchBytes (s : State) : (fetchBytes s).length = min (codeSpan s.defaultSize - s.pc.toNat)
    (s.program.bytes.length - (s.pc.toNat - s.program.start.toNat)) := by
  simp [fetchBytes]

/-- A step that goes on moves `pc` up by at least one byte, within `PROGRAM` and within the code segment, and around to 0 from the top of the segment (R27). -/
theorem step_next_pc {s t : State} (h : step s = .next t) : insideProgram s = true ∧ ∃ L, 0 < L ∧
    s.pc.toNat + L ≤ s.program.start.toNat + s.program.bytes.length ∧ s.pc.toNat + L ≤ codeSpan s.defaultSize ∧
    t.pc.toNat = (s.pc.toNat + L) % codeSpan s.defaultSize := by
  obtain ⟨hin, i, rest, hdec, hexec⟩ := step_next_decoded h
  have hlen := length_of_decode hdec
  have hpos := instrLength_pos i
  rw [length_fetchBytes] at hlen
  have hbounds := (insideProgram_iff s).1 hin
  exact ⟨hin, _, hpos, by omega, by omega, pcAdvancesByLength i s t hexec⟩

/-- `PROGRAM` does not both begin at offset 0 and fill the code segment (log entry 13). -/
def LeavesRoom (s : State) : Prop :=
  0 < s.program.start.toNat ∨ s.program.bytes.length < codeSpan s.defaultSize

theorem LeavesRoom.congr {s t : State} (h : LeavesRoom s) (hc : SameConstants s t) : LeavesRoom t := by
  unfold LeavesRoom
  rw [hc.program, hc.defaultSize]
  exact h

/-- Where a step leads to a byte of `PROGRAM`, `pc` did not go around the top of the code segment. -/
theorem pc_lt_of_step_next {s t : State} (hs : LeavesRoom s) (h : step s = .next t) (ht : insideProgram t = true) :
    s.pc.toNat < t.pc.toNat := by
  obtain ⟨hin, L, hpos, hend, htop, hpc⟩ := step_next_pc h
  rw [insideProgram_iff, (stepKeepsConstants s t h).program] at ht
  rw [insideProgram_iff] at hin
  rcases htop.lt_or_eq with hlt | heq
  · rw [hpc, Nat.mod_eq_of_lt hlt]
    omega
  · rw [heq, Nat.mod_self] at hpc
    rcases hs with hs | hs <;> omega

/-- A run that goes on for a step and `k` more went on after the first one. -/
theorem run_succ_next {M : Host.Core} {k : Nat} {s t : M.State} (h : M.run (k + 1) s = .next t) :
    ∃ u, M.step s = .next u ∧ M.run k u = .next t := by
  rw [Host.Core.run] at h
  split at h
  · next u hu => exact ⟨u, hu, h⟩
  · cases h
  · cases h

/-- A run ends that has more steps than there are bytes of `PROGRAM` from `pc` on. -/
theorem run_ends {k : Nat} {s : State} (t : State) (hs : LeavesRoom s)
    (hk : insideProgram s = true → s.program.start.toNat + s.program.bytes.length ≤ s.pc.toNat + k) :
    Host.Core.run core (k + 1) s ≠ .next t := by
  induction k generalizing s with
  | zero =>
    intro h
    obtain ⟨(u : State), (hu : step s = .next u), _⟩ := run_succ_next h
    have hin := (step_next_pc hu).1
    have hbounds := (insideProgram_iff s).1 hin
    have hend := hk hin
    omega
  | succ k ih =>
    intro h
    obtain ⟨(u : State), (hu : step s = .next u), hrun⟩ := run_succ_next h
    have hc := stepKeepsConstants s u hu
    refine ih (hs.congr hc) (fun hin => ?_) hrun
    have hstart := hk (step_next_pc hu).1
    have hpc := pc_lt_of_step_next hs hu hin
    rw [hc.program]
    omega

/-- Settles O25: every step that stays inside `PROGRAM` moves `pc` up, so that at most as many go on as `PROGRAM` has bytes. -/
theorem runAlwaysEnds : Obligations.RunAlwaysEnds := by
  intro s t hs
  refine run_ends t hs fun hin => ?_
  have hbounds := (insideProgram_iff s).1 hin
  omega

end Sys2Proof.Machine

/-! PROOFS. What `Access` answers and where the bytes stand, and what a load reads after a store (`20_memory.md`). -/

namespace Sys2Proof.Machine

open Sys2Proof

/-! ## The checks of an access -/

theorem outside64K_iff (r : MemRef) (n : Nat) : outside64K r n = true ↔ 0xFFFF < r.off.toNat + n - 1 := by
  simp [outside64K]

/-- The page check answers the addresses or a page fault (R70, R72). -/
theorem pageCheck_cases (s : State) (r : MemRef) (n : Nat) (kind : AccessKind) :
    (pageFaultOf s r n kind = none ∧ pageCheck s r n kind = .ok (physicalAddresses s r n kind)) ∨
    ∃ code, pageFaultOf s r n kind = some code ∧ pageCheck s r n kind = .error (.pf code) := by
  unfold pageCheck
  cases pageFaultOf s r n kind with
  | none => exact .inl ⟨rfl, rfl⟩
  | some code => exact .inr ⟨code, rfl, rfl⟩

theorem pageCheck_answers (s : State) (r : MemRef) (n : Nat) (kind : AccessKind) :
    (∃ p, pageCheck s r n kind = .ok p) ∨ ∃ code, pageCheck s r n kind = .error (.pf code) := by
  rcases pageCheck_cases s r n kind with ⟨_, h⟩ | ⟨code, _, h⟩
  · exact .inl ⟨_, h⟩
  · exact .inr ⟨code, h⟩

section

variable {s : State} (r : MemRef) (n : Nat) (kind : AccessKind)

/-- Real Address Mode has the offset check only (R71). -/
theorem access_of_real (h : s.mode = .real) : access s r n kind =
    if outside64K r n then .error .int13 else .ok (physicalAddresses s r n kind) := by
  simp only [access, h]

/-- Virtual 8086 Mode has the offset check, then the page check (R72). -/
theorem access_of_v86 (h : s.mode = .v86) : access s r n kind =
    if outside64K r n then .error .int13 else pageCheck s r n kind := by
  simp only [access, h]

/-- Protected Mode has the checks of the segment, then the page check (R70). -/
theorem access_of_prot (h : s.mode = .prot) : access s r n kind =
    if kind.writes && s.nonwritable.contains r.seg then .error .gp0
    else if illegalAccess s r n kind then .error (if r.seg = .ss then .ss0 else .gp0)
    else pageCheck s r n kind := by
  simp only [access, h]

end

/-- Settles O17: the checks of each mode in their order. -/
theorem accessExceptionsByMode : Obligations.AccessExceptionsByMode := by
  intro s r n kind _
  refine ⟨fun h => ?real, fun h => ?v86, fun h => ?prot⟩
  case real =>
    simp only [access_of_real r n kind h, outside64K_iff]
    split <;> simp
  case v86 =>
    simp only [access_of_v86 r n kind h, outside64K_iff]
    split
    · rfl
    · exact pageCheck_answers s r n kind
  case prot =>
    simp only [access_of_prot r n kind h, Bool.and_eq_true, List.contains_iff_mem]
    split
    · rfl
    · split
      · exact .inr (.inr rfl)
      · exact (pageCheck_answers s r n kind).imp_right .inl

/-! ## A readwrite access meets the checks of a read and of a write (R68) -/

section

variable {s : State} {r : MemRef} {n : Nat} {kind : AccessKind}

theorem AccessRule.covers_readwrite {a : AccessRule} (h : a.covers r n kind = true) :
    a.covers r n .readwrite = true := by
  simp_all [AccessRule.covers, AccessKind.hits]

theorem illegalAccess_readwrite (h : illegalAccess s r n kind = true) : illegalAccess s r n .readwrite = true := by
  simp only [illegalAccess, List.any_eq_true, Bool.and_eq_true] at h ⊢
  obtain ⟨a, ha, hcovers, hflaw⟩ := h
  exact ⟨a, ha, AccessRule.covers_readwrite hcovers, hflaw⟩

theorem pageFaultOf_readwrite (h : pageFaultOf s r n .readwrite = none) : pageFaultOf s r n kind = none := by
  simp only [pageFaultOf, List.findSome?_eq_none_iff, ite_eq_right_iff] at h ⊢
  exact fun a ha hcovers => h a ha (AccessRule.covers_readwrite hcovers)

theorem pageCheck_readwrite {p : List Dword} (h : pageCheck s r n .readwrite = .ok p) :
    ∃ p', pageCheck s r n kind = .ok p' := by
  rcases pageCheck_cases s r n .readwrite with ⟨hnone, _⟩ | ⟨code, _, hfault⟩
  · exact ⟨physicalAddresses s r n kind, by simp [pageCheck, pageFaultOf_readwrite hnone]⟩
  · simp [hfault] at h

/-- Where a readwrite access is answered with bytes, so is the access of every kind (R68). -/
theorem access_of_readwrite {p : List Dword} (h : access s r n .readwrite = .ok p) :
    ∃ p', access s r n kind = .ok p' := by
  cases hm : s.mode with
  | real =>
    rw [access_of_real _ _ _ hm] at h ⊢
    split at h <;> cases h
    next hout => exact ⟨_, if_neg hout⟩
  | v86 =>
    rw [access_of_v86 _ _ _ hm] at h ⊢
    split at h
    · cases h
    next hout => simpa [hout] using pageCheck_readwrite h
  | prot =>
    rw [access_of_prot _ _ _ hm] at h ⊢
    split at h
    · cases h
    next hwrite =>
      split at h
      · cases h
      next hlegal =>
        have hwrite' : ¬ (kind.writes && s.nonwritable.contains r.seg) = true :=
          fun hw => hwrite (Bool.and_eq_true_iff.1 hw).2
        have hlegal' : ¬ illegalAccess s r n kind = true := fun hi => hlegal (illegalAccess_readwrite hi)
        rw [if_neg hwrite', if_neg hlegal']
        exact pageCheck_readwrite h

end

/-- Settles O20: a readwrite access that is answered with bytes passes every check of the other kinds. -/
theorem readWriteFailsWhereReadOrWriteFails : Obligations.ReadWriteFailsWhereReadOrWriteFails := by
  intro s r n kind e he
  cases h : access s r n .readwrite with
  | error e' => exact ⟨e', rfl⟩
  | ok p =>
    obtain ⟨p', hp'⟩ := access_of_readwrite (kind := kind) h
    simp [he] at hp'

/-! ## Where the bytes of an operand stand (R64) -/

/-- The offsets of the bytes advance as `pc` does, by the address size (R64). -/
theorem offsets_eq_map_advance (r : MemRef) (n : Nat) :
    r.offsets n = (List.range n).map (advance r.addrsize r.off) := by
  unfold MemRef.offsets
  cases r.addrsize <;> rfl

theorem physicalAddresses_of_placement {s : State} {r : MemRef} {n : Nat} {kind : AccessKind} {q : Placement}
    (h : placementOf s r n kind = some q) : physicalAddresses s r n kind = q.bytes := by
  simp [physicalAddresses, h]

theorem physicalAddresses_of_no_placement {s : State} {r : MemRef} {n : Nat} {kind : AccessKind}
    (h : placementOf s r n kind = none) : physicalAddresses s r n kind =
      (List.range n).map fun k => physicalAddress s r.seg (advance r.addrsize r.off k) := by
  simp [physicalAddresses, h, offsets_eq_map_advance]

/-- A byte that no location rule is about stands at its linear address (R64). -/
theorem physicalAddress_of_no_rule {s : State} {seg : Seg} {o : Dword}
    (h : ∀ l ∈ s.locations, l.covers seg o = false) : physicalAddress s seg o = linearAddress s seg o := by
  have hnone : s.locations.find? (fun l => l.covers seg o) = none :=
    List.find?_eq_none.2 fun l hl => by simp [h l hl]
  simp [physicalAddress, hnone]

/-- The linear address outside of Protected Mode as a number (R71). -/
theorem toNat_linearAddress {s : State} (h : s.mode ≠ .prot) (seg : Seg) (o : Dword) :
    (linearAddress s seg o).toNat = (16 * (s.segment seg).selector.toNat + o.toNat) % 2 ^ 32 := by
  unfold linearAddress
  split
  · contradiction
  all_goals simp [BitVec.toNat_add, BitVec.toNat_mul]

/-- Settles O18: an answered access gives the addresses of its placement, else those of its offsets one by one. -/
theorem accessAddresses : Obligations.AccessAddresses := by
  intro s r n kind p hp
  have hlen := access_ok_length hp
  cases access_ok hp
  refine ⟨hlen, fun q hq => physicalAddresses_of_placement hq, fun hnone k hk => ?_⟩
  have hbyte : (physicalAddresses s r n kind)[k] = physicalAddress s r.seg (advance r.addrsize r.off k) := by
    simp [physicalAddresses_of_no_placement hnone]
  refine ⟨_, toNat_advance r.addrsize r.off k, hbyte, fun hmode hrule => ?_⟩
  rw [hbyte, physicalAddress_of_no_rule hrule, toNat_linearAddress hmode]

/-! ## Placements (R64, log entry 7) -/

/-- The state with other places for the bytes of single requests. -/
def State.withPlacements (s : State) (l : List Placement) : State := { s with placements := l }

/-- Placements decide the addresses of an access that is answered with bytes, and nothing else about it. -/
theorem access_withPlacements (s : State) (l : List Placement) (r : MemRef) (n : Nat) (kind : AccessKind) :
    access (s.withPlacements l) r n kind =
      (access s r n kind).map fun _ => physicalAddresses (s.withPlacements l) r n kind := by
  have hpage : pageCheck (s.withPlacements l) r n kind =
      (pageCheck s r n kind).map fun _ => physicalAddresses (s.withPlacements l) r n kind := by
    have hfault : pageFaultOf (s.withPlacements l) r n kind = pageFaultOf s r n kind := rfl
    unfold pageCheck
    rw [hfault]
    cases pageFaultOf s r n kind <;> rfl
  have hillegal : illegalAccess (s.withPlacements l) r n kind = illegalAccess s r n kind := rfl
  have hmode : (s.withPlacements l).mode = s.mode := rfl
  have hseg : (s.withPlacements l).nonwritable = s.nonwritable := rfl
  unfold access
  rw [hpage, hillegal, hmode, hseg]
  cases s.mode <;> dsimp only <;> repeat' split
  all_goals rfl

/-- The placement that gives one request its addresses. -/
def MemRef.placedAt (r : MemRef) (kind : AccessKind) (bytes : List Dword) : Placement :=
  ⟨r.seg, r.off, some r.addrsize, kind, bytes⟩

theorem placedAt_covers (r r' : MemRef) (n' : Nat) (kind kind' : AccessKind) (bytes : List Dword) :
    (r.placedAt kind bytes).covers r' n' kind' = true ↔ r' = r ∧ n' = bytes.length ∧ kind' = kind := by
  obtain ⟨seg, off, z⟩ := r
  obtain ⟨seg', off', z'⟩ := r'
  simp only [Placement.covers, MemRef.placedAt, Option.all_some, Bool.and_eq_true, beq_iff_eq, MemRef.mk.injEq]
  tauto

section

variable {s : State} {r : MemRef} {kind : AccessKind} {bytes : List Dword}

/-- A placement in front answers its own request. -/
theorem access_placedAt {p : List Dword} (h : access s r bytes.length kind = .ok p) :
    access (s.withPlacements (r.placedAt kind bytes :: s.placements)) r bytes.length kind = .ok bytes := by
  have hplace : placementOf (s.withPlacements (r.placedAt kind bytes :: s.placements)) r bytes.length kind =
      some (r.placedAt kind bytes) :=
    List.find?_cons_of_pos ((placedAt_covers r r bytes.length kind kind bytes).2 ⟨rfl, rfl, rfl⟩)
  rw [access_withPlacements, h, physicalAddresses_of_placement hplace]
  rfl

/-- A placement in front leaves the answer to every other request as it was. -/
theorem access_placedAt_other {r' : MemRef} {n' : Nat} {kind' : AccessKind}
    (h : r' ≠ r ∨ n' ≠ bytes.length ∨ kind' ≠ kind) :
    access (s.withPlacements (r.placedAt kind bytes :: s.placements)) r' n' kind' = access s r' n' kind' := by
  have hcovers : ¬ (r.placedAt kind bytes).covers r' n' kind' = true := by
    rw [placedAt_covers]
    tauto
  have hplace : placementOf (s.withPlacements (r.placedAt kind bytes :: s.placements)) r' n' kind' =
      placementOf s r' n' kind' := List.find?_cons_of_neg hcovers
  have haddresses : physicalAddresses (s.withPlacements (r.placedAt kind bytes :: s.placements)) r' n' kind' =
      physicalAddresses s r' n' kind' := by
    unfold physicalAddresses
    rw [hplace]
    rfl
  rw [access_withPlacements, haddresses]
  cases hans : access s r' n' kind' with
  | error e => rfl
  | ok p => rw [access_ok hans]; rfl

end

/-- Settles O19: a placement in front of the others decides its own request and no other. -/
theorem accessMayAnswerAnyAddresses : Obligations.AccessMayAnswerAnyAddresses :=
  fun _ _ _ _ _ h => ⟨access_placedAt h, fun _ _ _ hother => access_placedAt_other hother⟩

/-! ## A load after a store (R66, R67, R76) -/

/-- A load of distinct bytes gives back the bytes stored there. -/
theorem Memory.load_store {m : Memory} {p : List Dword} {bs : List Byte} (hm : m.wf = true) (hp : p.Nodup)
    (hlen : p.length = bs.length) : (m.store p bs).load p = bs := by
  refine List.ext_getElem (by simpa [Memory.load] using hlen) fun k hk _ => ?_
  have hk' : k < p.length := by simpa [Memory.load] using hk
  have hdistinct : ∀ j, ∀ hj : j < p.length, k < j → p[j] ≠ p[k] :=
    fun j hj hkj heq => hkj.ne' ((hp.getElem_inj_iff).1 heq)
  simpa [Memory.load] using Memory.read_store_at p bs m hm hlen k hk' hdistinct

theorem Memory.load_take (m : Memory) (p : List Dword) (k : Nat) : m.load (p.take k) = (m.load p).take k :=
  List.map_take

/-- The first byte of a value is its bits 7:0 (R63). -/
theorem ofBytes_take_one_toBytes {k n : Nat} (hk : 0 < k) (v : BitVec n) :
    ofBytes 8 ((toBytes k v).take 1) = v.extractLsb' 0 8 := by
  have hlen : 0 < (toBytes k v).length := by simpa using hk
  have hfirst : (toBytes k v).take 1 = [v.extractLsb' 0 8] := by
    rw [List.take_one, List.head?_eq_getElem?, List.getElem?_eq_getElem hlen, getElem_toBytes k v 0 hk]
    rfl
  rw [hfirst, ← toBytes_one, ofBytes_toBytes 1 (le_refl 8)]

/-- Settles O21: the bytes loaded are the bytes stored, and they are those of the value. -/
theorem loadAfterStore : Obligations.LoadAfterStore := by
  intro w m p v hm hp hlen
  have hload : (m.store p (toBytes w.bytes v)).load p = toBytes w.bytes v :=
    Memory.load_store hm hp (by simpa using hlen)
  refine ⟨?value, ?first, fun a ha => Memory.read_store_other p _ m hm a ha⟩
  case value =>
    rw [hload]
    exact ofBytes_toBytes w.bytes (by cases w <;> decide) v
  case first =>
    rw [Memory.load_take, hload]
    exact ofBytes_take_one_toBytes (by cases w <;> decide) v

end Sys2Proof.Machine

/-! PROOFS. What an instruction makes of the answer to its one request to `Access` (`20_memory.md` rules R66 to R68, R75, R84). -/

namespace Sys2Proof.Machine

open Sys2Proof

/-! ## The request and the count of each row -/

/-- An alternative that is none adds nothing; `request` is a chain of alternatives. -/
theorem orElse_none_right {α : Type} (x : Option α) : (x.orElse fun _ => none) = x :=
  Option.orElse_eq_or.trans Option.or_none

section

variable {i : Instr} (s : State)

theorem request_of_subRow {q : SubRow} (h : subRow i = some q) : request i s = q.request s := by
  cases i with
  | sbbAlImm8 | sbbAxImm16 | sbbEaxImm32 | subAlImm8 | subAxImm16 | subEaxImm32 => cases h; rfl
  | _ => cases h <;> exact orElse_none_right _

theorem request_of_shiftRow {q : ShiftRow} (h : shiftRow i = some q) :
    request i s = rmRequest q.pre q.w.bytes .readwrite s q.rm := by
  unfold shiftRow at h
  split at h <;> cases h <;> exact orElse_none_right _

theorem request_of_doubleRow {q : DoubleRow} (h : doubleRow i = some q) :
    request i s = rmRequest q.pre q.w.bytes .readwrite s q.rm := by
  unfold doubleRow at h
  split at h <;> cases h <;> exact orElse_none_right _

theorem request_of_setRow {q : SetRow} (h : setRow i = some q) : request i s = rmRequest q.pre 1 .write s q.rm := by
  unfold setRow at h
  split at h <;> cases h <;> exact orElse_none_right _

theorem request_of_scasRow {q : StringRow} (h : scasRow i = some q) :
    request i s = some ⟨stringRef (q.pre.addressSize s.defaultSize) s, q.w.bytes, .read⟩ := by
  unfold scasRow at h
  split at h <;> cases h <;> rfl

theorem request_of_stosRow {q : StringRow} (h : stosRow i = some q) :
    request i s = some ⟨stringRef (q.pre.addressSize s.defaultSize) s, q.w.bytes, .write⟩ := by
  unfold stosRow at h
  split at h <;> cases h <;> rfl

theorem request_of_tableRow {q : TableRow} (h : tableRow s i = some q) :
    request i s = rmRequest q.pre 6 .write s q.rm := by
  unfold tableRow at h
  split at h <;> cases h <;> exact orElse_none_right _

theorem request_of_systemRow {q : SystemRow} (h : systemRow s i = some q) :
    request i s = if q.protectedOnly = true ∧ s.mode ≠ .prot then none else rmRequest q.pre 2 .write s q.rm := by
  unfold systemRow at h
  split at h <;> cases h <;> rfl

theorem countIsZero_of_shiftRow {q : ShiftRow} (h : shiftRow i = some q) :
    countIsZero i s = (shiftCount q.count s == 0) := by
  unfold shiftRow at h
  split at h <;> cases h <;> exact Bool.or_false _

theorem countIsZero_of_doubleRow {q : DoubleRow} (h : doubleRow i = some q) :
    countIsZero i s = (shiftCount q.count s == 0) := by
  unfold doubleRow at h
  split at h <;> cases h <;> rfl

theorem countIsZero_of_other (hshift : shiftRow i = none) (hdouble : doubleRow i = none) :
    countIsZero i s = false := by
  simp [countIsZero, hshift, hdouble]

end

/-! ## What can come of a request -/

/-- All that can come of the one request of an instruction: there is none; its exception is raised; it is answered with a byte of `PROGRAM` that would be written, and the instruction is refused; or it is answered with bytes that may be used so. `quiet` says that nothing is written whatever the kind of the request is. -/
inductive Handles (s : State) (req : Option Request) (quiet : Bool) (out : Result) : Prop where
  | unasked (hreq : req = none) (hout : ∀ x, out ≠ .refused x)
  | raises (r : Request) (e : Exc) (hreq : req = some r) (hans : access s r.ref r.bytes r.kind = .error e)
      (hout : out = raise e s)
  | refuses (r : Request) (p : List Dword) (hreq : req = some r) (hans : access s r.ref r.bytes r.kind = .ok p)
      (hwrites : r.kind.writes = true) (hloud : quiet = false) (hhits : hitsProgram s p = true)
      (hout : out = .refused .storeIntoProgram)
  | goesOn (r : Request) (p : List Dword) (hreq : req = some r) (hans : access s r.ref r.bytes r.kind = .ok p)
      (hfree : r.kind.writes = true → quiet = false → hitsProgram s p = false) (hout : ∀ x, out ≠ .refused x)

section

variable {s : State} {req : Option Request} {quiet : Bool} {out : Result}

theorem Handles.raise_of_error (h : Handles s req quiet out) {r : Request} {e : Exc} (hr : req = some r)
    (he : access s r.ref r.bytes r.kind = .error e) : out = raise e s := by
  cases h with
  | unasked hreq _ => simp [hreq] at hr
  | raises r' e' hreq hans hout =>
    cases hreq.symm.trans hr
    cases hans.symm.trans he
    exact hout
  | refuses r' p hreq hans | goesOn r' p hreq hans =>
    cases hreq.symm.trans hr
    cases hans.symm.trans he

theorem Handles.refused_iff (h : Handles s req quiet out) (x : Refusal) : out = .refused x ↔
    x = .storeIntoProgram ∧ quiet = false ∧ ∃ q p, req = some q ∧ q.kind.writes = true ∧
      access s q.ref q.bytes q.kind = .ok p ∧ hitsProgram s p = true := by
  cases h with
  | unasked hreq hout => simp [hreq, hout]
  | raises r e hreq hans hout => simp [hreq, hans, hout, raise]
  | refuses r p hreq hans hwrites hloud hhits hout =>
    rw [hout]
    constructor
    · rintro ⟨⟩
      exact ⟨rfl, hloud, r, p, hreq, hwrites, hans, hhits⟩
    · rintro ⟨rfl, _⟩
      rfl
  | goesOn r p hreq hans hfree hout =>
    refine ⟨fun h => absurd h (hout x), ?_⟩
    rintro ⟨_, hloud, r', p', hr, hwrites, hp, hhits⟩
    cases hreq.symm.trans hr
    cases hans.symm.trans hp
    simp [hfree hwrites hloud] at hhits

end

/-! ## The shared operations -/

theorem commit_ne_refused (L : Nat) (u : State) (x : Refusal) : commit L (.ok u) ≠ .refused x := by
  rintro ⟨⟩

/-- A store of bytes at an answered address, whatever flags were set before it. -/
theorem handles_storeBytes {s u : State} {r : Request} {p : List Dword} (L : Nat) (bs : List Byte)
    (hans : access s r.ref r.bytes r.kind = .ok p) (hwrites : r.kind.writes = true) (hu : SameConstants s u) :
    Handles s (some r) false (commit L (storeBytes p bs u)) := by
  rw [storeBytes_eq, hitsProgram_congr hu]
  cases hhits : hitsProgram s p with
  | true => exact .refuses r p rfl hans hwrites rfl hhits rfl
  | false => exact .goesOn r p rfl hans (fun _ _ => hhits) (commit_ne_refused L _)

section

variable {p : Prefixes} {rm : RM} {n : Nat} {kind : AccessKind} {s : State}

theorem handles_raise {e : Exc} (quiet : Bool) (h : operandPlace p rm n kind s = .error e) :
    Handles s (rmRequest p n kind s rm) quiet (raise e s) := by
  cases rm with
  | reg i => cases h
  | mem m =>
    refine .raises _ e rfl ?_ rfl
    rw [operandPlace] at h
    split at h <;> cases h
    assumption

/-- The operand is accessible and nothing is written there. -/
theorem handles_unwritten {pl : Place} {quiet : Bool} (u : State) (h : operandPlace p rm n kind s = .ok pl)
    (hq : kind.writes = true → quiet = true) : Handles s (rmRequest p n kind s rm) quiet (.next u) := by
  rcases operandPlace_ok h with ⟨i, rfl, rfl⟩ | ⟨m, a, rfl, rfl, hans⟩
  · exact .unasked rfl (by simp)
  · exact .goesOn _ a rfl hans (fun hw hloud => by simp [hq hw] at hloud) (by simp)

theorem handles_writePlace {w : Width} {pl : Place} {u : State} (L : Nat) (v : BitVec w.bits)
    (h : operandPlace p rm n kind s = .ok pl) (hwrites : kind.writes = true) (hu : SameConstants s u) :
    Handles s (rmRequest p n kind s rm) false (commit L (writePlace w pl v u)) := by
  rcases operandPlace_ok h with ⟨i, rfl, rfl⟩ | ⟨m, a, rfl, rfl, hans⟩
  · exact .unasked rfl (commit_ne_refused L _)
  · exact handles_storeBytes L _ hans hwrites hu

end

section

variable (w : Width) (L : Nat) (p : Prefixes) (rm : RM) (s : State)

/-- A read-modify-write that sets flags only is quiet where it gives no new value (R68, R142, R222). -/
theorem handles_updateRM {f : BitVec w.bits → State → Option (BitVec w.bits) × State} {quiet : Bool}
    (hf : ∀ a, FlagsOnly s (f a s).2) (hq : ∀ a, (f a s).1.isNone = quiet) :
    Handles s (rmRequest p w.bytes .readwrite s rm) quiet (updateRM w L p rm f s) := by
  rcases updateRM_cases w L p rm f s with ⟨e, he, h⟩ | ⟨pl, hpl, hnone, h⟩ | ⟨pl, v, hpl, hsome, h⟩ <;> rw [h]
  · exact handles_raise quiet he
  · exact handles_unwritten _ hpl fun _ => by simp [← hq (readPlace w pl s), hnone]
  · have hloud : quiet = false := by simp [← hq (readPlace w pl s), hsome]
    exact hloud ▸ handles_writePlace L v hpl rfl (hf _).constants

theorem handles_writeRM (v : BitVec w.bits) :
    Handles s (rmRequest p w.bytes .write s rm) false (writeRM w L p rm v s) := by
  rcases writeRM_cases w L p rm v s with ⟨e, he, h⟩ | ⟨pl, hpl, h⟩ <;> rw [h]
  · exact handles_raise false he
  · exact handles_writePlace L v hpl rfl (SameConstants.refl s)

theorem handles_readRM (f : BitVec w.bits → State → State) :
    Handles s (rmRequest p w.bytes .read s rm) false (readRM w L p rm f s) := by
  rcases readRM_cases w L p rm f s with ⟨e, he, h⟩ | ⟨pl, hpl, h⟩ <;> rw [h]
  · exact handles_raise false he
  · exact handles_unwritten _ hpl (by simp [AccessKind.writes])

theorem handles_scanString :
    Handles s (some ⟨stringRef (p.addressSize s.defaultSize) s, w.bytes, .read⟩) false (scanString w L p s) := by
  rcases scanString_cases w L p s with ⟨e, he, h⟩ | ⟨a, ha, h⟩ <;> rw [h]
  · exact .raises _ e rfl he rfl
  · exact .goesOn _ a rfl ha (by simp [AccessKind.writes]) (by simp)

theorem handles_storeString :
    Handles s (some ⟨stringRef (p.addressSize s.defaultSize) s, w.bytes, .write⟩) false (storeString w L p s) := by
  rcases storeString_cases w L p s with ⟨e, he, h⟩ | ⟨a, ha, hhits, h⟩ | ⟨a, ha, hfree, h⟩ <;> rw [h]
  · exact .raises _ e rfl he rfl
  · exact .refuses _ a rfl ha rfl rfl hhits rfl
  · exact .goesOn _ a rfl ha (fun _ _ => hfree) (by simp)

theorem handles_storeTable (t : DescTable) :
    Handles s (rmRequest p 6 .write s rm) false (storeTable t L p rm s) := by
  rcases storeTable_cases t L p rm s with ⟨i, rfl, h⟩ | ⟨m, e, rfl, he, h⟩ | ⟨m, a, rfl, ha, h⟩ <;> rw [h]
  · exact .unasked rfl (by simp [raise])
  · exact .raises _ e rfl he rfl
  · exact handles_storeBytes L _ ha rfl (flagsOnly_afterImage _ s).constants

theorem handles_storeSystem (v : Half) :
    Handles s (rmRequest p 2 .write s rm) false (storeSystem v L p rm s) := by
  rcases storeSystem_cases v L p rm s with ⟨i, rfl, h⟩ | ⟨m, e, rfl, he, h⟩ | ⟨m, a, rfl, ha, h⟩ <;> rw [h]
  · exact .unasked rfl (by simp)
  · exact .raises _ e rfl he rfl
  · exact handles_storeBytes L _ ha rfl (SameConstants.refl s)

end

/-! ## Subtractions and shifts -/

/-- A row whose SRC is the `r/m` operand has a register DEST (R160, R270). -/
theorem dest_of_subRow {i : Instr} {q : SubRow} {rm : RM} (h : subRow i = some q) (hsrc : q.src = .rm rm) :
    ∃ r, q.dest = .reg r := by
  cases i with
  | sbbR8Rm8 | sbbR16Rm16 | sbbR32Rm32 | subR8Rm8 | subR16Rm16 | subR32Rm32 => cases h; exact ⟨_, rfl⟩
  | _ => cases h <;> cases hsrc

theorem handles_subFromRM (op : SubOp) (w : Width) (L : Nat) (p : Prefixes) (rm : RM) (b : BitVec w.bits)
    (s : State) : Handles s (rmRequest p w.bytes .readwrite s rm) false (subFromRM op w L p rm b s) :=
  handles_updateRM w L p rm s (fun a => withSubFlags_flagsOnly a b _ s) fun _ => rfl

theorem handles_subRow {i : Instr} {q : SubRow} (h : subRow i = some q) (L : Nat) (s : State) :
    Handles s (q.request s) false (q.run L s) := by
  obtain ⟨op, w, p, dest, src⟩ := q
  cases src with
  | imm v => exact handles_subFromRM op w L p dest v s
  | reg r => exact handles_subFromRM op w L p dest (readReg w r s) s
  | rm rm =>
    obtain ⟨r, rfl : dest = .reg r⟩ := dest_of_subRow h rfl
    rw [← subFromReg_eq_run]
    exact handles_readRM w L p rm s _

theorem shiftOperand_isNone (op : ShiftOp) {n : Nat} (c : Nat) (a : BitVec n) (s : State) :
    (shiftOperand op c a s).1.isNone = (c == 0) := by
  by_cases hc : c = 0
  · subst hc; rfl
  · simp [(shiftOperand_pos op c a s hc).1, hc]

theorem doubleOperand_isNone (op : DoubleOp) {n : Nat} (c : Nat) (b a : BitVec n) (s : State) :
    (doubleOperand op c b a s).1.isNone = (c == 0) := by
  by_cases hc : c = 0
  · subst hc; rfl
  rcases Nat.lt_or_ge c n with hn | hn
  · simp [(doubleOperand_in op c b a s hc hn).1, hc]
  · obtain ⟨v, hv⟩ := doubleOperand_over op c b a s hc hn
    simp [hv, hc]

/-! ## Every instruction -/

theorem handles_systemRow {i : Instr} {q : SystemRow} {s : State} (h : systemRow s i = some q) :
    Handles s (request i s) false (exec i s) := by
  rw [exec_of_systemRow h, request_of_systemRow s h]
  split
  · exact .unasked rfl (by simp [raise])
  · exact handles_storeSystem _ _ _ s _

/-- An instruction that is no shift and no double shift. -/
theorem exec_handles_loud {i : Instr} (hshift : shiftRow i = none) (hdouble : doubleRow i = none) (s : State) :
    Handles s (request i s) false (exec i s) := by
  cases rowOf s i with
  | sub q h => rw [exec_of_subRow h, request_of_subRow s h]; exact handles_subRow h _ s
  | shift q h => simp [hshift] at h
  | double q h => simp [hdouble] at h
  | set q h => rw [exec_of_setRow h, request_of_setRow s h]; exact handles_writeRM .w8 _ _ _ s _
  | scas q h => rw [exec_of_scasRow h, request_of_scasRow s h]; exact handles_scanString _ _ _ s
  | stos q h => rw [exec_of_stosRow h, request_of_stosRow s h]; exact handles_storeString _ _ _ s
  | table q h => rw [exec_of_tableRow h, request_of_tableRow s h]; exact handles_storeTable _ _ _ s _
  | system q h => exact handles_systemRow h
  | sahf p h | stc p h | std p h => subst h; exact .unasked rfl (by rintro x ⟨⟩)
  | sti p h =>
    subst h
    refine .unasked rfl fun x => ?_
    rw [exec_sti]
    split <;> rintro ⟨⟩

/-- Every instruction makes its one request and goes by the answer; it is quiet where its count is 0. -/
theorem exec_handles (i : Instr) (s : State) : Handles s (request i s) (countIsZero i s) (exec i s) := by
  cases hshift : shiftRow i with
  | some q =>
    rw [exec_of_shiftRow hshift, request_of_shiftRow s hshift, countIsZero_of_shiftRow s hshift]
    exact handles_updateRM _ _ _ _ s (fun a => shiftOperand_flagsOnly _ _ a s) fun a => shiftOperand_isNone _ _ a s
  | none =>
    cases hdouble : doubleRow i with
    | some q =>
      rw [exec_of_doubleRow hdouble, request_of_doubleRow s hdouble, countIsZero_of_doubleRow s hdouble]
      exact handles_updateRM _ _ _ _ s (fun a => doubleOperand_flagsOnly _ _ _ a s)
        fun a => doubleOperand_isNone _ _ _ a s
    | none =>
      rw [countIsZero_of_other s hshift hdouble]
      exact exec_handles_loud hshift hdouble s

/-- Settles O36: of what can come of a request, the refusal is the answered write that is not quiet and hits `PROGRAM`. -/
theorem refusedExactlyForStoresIntoProgram : Obligations.RefusedExactlyForStoresIntoProgram :=
  fun i s r => (exec_handles i s).refused_iff r

/-- Settles O37: of what can come of a request, an exception is raised with the state as it was. -/
theorem operandExceptionEndsRun : Obligations.OperandExceptionEndsRun :=
  fun i s _ _ hr he => (exec_handles i s).raise_of_error hr he

end Sys2Proof.Machine

/-! PROOFS. The decoder reads back what the encoder wrote (`30_encoding.md` rules R90, R107, R112), and a step runs the instruction whose encoding stands at `pc` (`20_memory.md` rule R84). -/

namespace Sys2Proof

/-! ## The row that an encoding opens -/

/-- The opcode bytes stand for a row of R105 or R106, whatever comes after them. -/
def Opens (osz : Size) (op : List Byte) (row : OpcodeRow) : Prop :=
  ∀ tail, decodeOpcode osz (op ++ tail) = .ok (row, tail)

/-- Bytes after the prefixes `p` that are the opcode and the operands of a row, and the instruction the row makes of them, under an operand size and an address size: one case for each format (R113) and each way of choosing the row. -/
inductive BodyOf (osz z : Size) (p : Prefixes) : List Byte → Instr → Prop where
  | plain {op : List Byte} {mk : Prefixes → Instr} (h : Opens osz op (.found (.plain mk))) : BodyOf osz z p op (mk p)
  | imm {op : List Byte} {n k : Nat} {mk : Prefixes → BitVec n → Instr} (v : BitVec n)
      (h : Opens osz op (.found (.imm n mk))) (hn : n = 8 * k) : BodyOf osz z p (op ++ toBytes k v) (mk p v)
  | modrm {op : List Byte} {reg : BitVec 3} {rm : RM} {mk : Prefixes → RM → Instr}
      (h : Opens osz op (.found (.modrm mk))) (hrm : rm.wellFormed z = true) :
      BodyOf osz z p (op ++ encodeRM reg rm) (mk p rm)
  | digit {op : List Byte} {reg : BitVec 3} {rm : RM} {g : BitVec 3 → Option RowForm} {mk : Prefixes → RM → Instr}
      (h : Opens osz op (.digits g)) (hg : g reg = some (.modrm mk)) (hrm : rm.wellFormed z = true) :
      BodyOf osz z p (op ++ encodeRM reg rm) (mk p rm)
  | digitImm {op : List Byte} {reg : BitVec 3} {rm : RM} {g : BitVec 3 → Option RowForm} {n k : Nat}
      {mk : Prefixes → RM → BitVec n → Instr} (v : BitVec n) (h : Opens osz op (.digits g))
      (hg : g reg = some (.rmImm n mk)) (hrm : rm.wellFormed z = true) (hn : n = 8 * k) :
      BodyOf osz z p (op ++ encodeRM reg rm ++ toBytes k v) (mk p rm v)
  | reg {op : List Byte} {r : BitVec 3} {rm : RM} {mk : Prefixes → RM → BitVec 3 → Instr}
      (h : Opens osz op (.found (.rmReg mk))) (hrm : rm.wellFormed z = true) :
      BodyOf osz z p (op ++ encodeRM r rm) (mk p rm r)
  | regImm {op : List Byte} {r : BitVec 3} {rm : RM} {mk : Prefixes → RM → BitVec 3 → BitVec 8 → Instr} (v : BitVec 8)
      (h : Opens osz op (.found (.rmRegImm8 mk))) (hrm : rm.wellFormed z = true) :
      BodyOf osz z p (op ++ encodeRM r rm ++ toBytes 1 v) (mk p rm r v)

/-- What is encoded for an instruction reads as the first row with that encoding (R105, R106, R112). -/
theorem encodeBody_bodyOf (i : Instr) {osz z : Size} (hsize : ∀ o, i.parts.opsize = some o → osz = o)
    (hrm : ∀ rm, i.parts.rm = some rm → rm.wellFormed z = true) :
    BodyOf osz z i.parts.pre (encodeBody i) (canonical i) := by
  cases i with
  | sahf | stc | std | sti | scasM8 | scasb | stosM8 | stosb => exact .plain fun _ => rfl
  | scasM16 | scasw | stosM16 | stosw | scasM32 | scasd | stosM32 | stosd =>
    cases hsize _ rfl
    exact .plain fun _ => rfl
  | sbbAlImm8 | subAlImm8 => exact .imm _ (fun _ => rfl) rfl
  | sbbAxImm16 | subAxImm16 | sbbEaxImm32 | subEaxImm32 =>
    cases hsize _ rfl
    exact .imm _ (fun _ => rfl) rfl
  | seta | setae | setb | setbe | setc | sete | setg | setge | setl | setle | setna | setnae | setnb | setnbe | setnc
  | setne | setng | setnge | setnl | setnle | setno | setnp | setns | setnz | seto | setp | setpe | setpo | sets
  | setz => exact .modrm (fun _ => rfl) (hrm _ rfl)
  | sgdt | sidt | sldt | smsw | str
  | salRm8One | salRm8Cl | sarRm8One | sarRm8Cl | shlRm8One | shlRm8Cl | shrRm8One | shrRm8Cl =>
    exact .digit (fun _ => rfl) rfl (hrm _ rfl)
  | salRm16One | salRm16Cl | salRm32One | salRm32Cl | sarRm16One | sarRm16Cl | sarRm32One | sarRm32Cl
  | shlRm16One | shlRm16Cl | shlRm32One | shlRm32Cl | shrRm16One | shrRm16Cl | shrRm32One | shrRm32Cl =>
    cases hsize _ rfl
    exact .digit (fun _ => rfl) rfl (hrm _ rfl)
  | salRm8Imm8 | sarRm8Imm8 | shlRm8Imm8 | shrRm8Imm8 | sbbRm8Imm8 | subRm8Imm8 =>
    exact .digitImm _ (fun _ => rfl) rfl (hrm _ rfl) rfl
  | salRm16Imm8 | salRm32Imm8 | sarRm16Imm8 | sarRm32Imm8 | shlRm16Imm8 | shlRm32Imm8 | shrRm16Imm8 | shrRm32Imm8
  | sbbRm16Imm16 | sbbRm32Imm32 | sbbRm16Imm8 | sbbRm32Imm8 | subRm16Imm16 | subRm32Imm32 | subRm16Imm8
  | subRm32Imm8 =>
    cases hsize _ rfl
    exact .digitImm _ (fun _ => rfl) rfl (hrm _ rfl) rfl
  | sbbRm8R8 | sbbR8Rm8 | subRm8R8 | subR8Rm8 => exact .reg (fun _ => rfl) (hrm _ rfl)
  | sbbRm16R16 | sbbRm32R32 | sbbR16Rm16 | sbbR32Rm32 | subRm16R16 | subRm32R32 | subR16Rm16 | subR32Rm32
  | shldRm16R16Cl | shldRm32R32Cl | shrdRm16R16Cl | shrdRm32R32Cl =>
    cases hsize _ rfl
    exact .reg (fun _ => rfl) (hrm _ rfl)
  | shldRm16R16Imm8 | shldRm32R32Imm8 | shrdRm16R16Imm8 | shrdRm32R32Imm8 =>
    cases hsize _ rfl
    exact .regImm _ (fun _ => rfl) (hrm _ rfl)

/-! ## Decoding an encoding -/

/-- The digit of an encoded ModRM operand chooses the row (R105, R106). -/
theorem form_digits {g : BitVec 3 → Option RowForm} {reg : BitVec 3} {f : RowForm} (h : g reg = some f) (rm : RM)
    (tail : List Byte) : (OpcodeRow.digits g).form (encodeRM reg rm ++ tail) = .ok f := by
  have hhead : ∃ b rest, encodeRM reg rm = b :: rest ∧ b.extractLsb' 3 3 = reg := by
    unfold encodeRM
    split <;> exact ⟨_, _, rfl, packByte_mid _ _ _⟩
  obtain ⟨b, rest, hb, hreg⟩ := hhead
  simp [hb, OpcodeRow.form, hreg, h]

section

variable {z : Size} {p : Prefixes} {reg : BitVec 3} {rm : RM} (hrm : rm.wellFormed z = true) (rest : List Byte)
include hrm

theorem operands_modrm (mk : Prefixes → RM → Instr) :
    (RowForm.modrm mk).operands p z (encodeRM reg rm ++ rest) = .ok (mk p rm, rest) := by
  simp [RowForm.operands, decodeRM_encodeRM z reg rm hrm]

theorem operands_rmReg (mk : Prefixes → RM → BitVec 3 → Instr) :
    (RowForm.rmReg mk).operands p z (encodeRM reg rm ++ rest) = .ok (mk p rm reg, rest) := by
  simp [RowForm.operands, decodeRM_encodeRM z reg rm hrm]

theorem operands_rmImm {n k : Nat} (hn : n = 8 * k) (mk : Prefixes → RM → BitVec n → Instr) (v : BitVec n) :
    (RowForm.rmImm n mk).operands p z (encodeRM reg rm ++ (toBytes k v ++ rest)) = .ok (mk p rm v, rest) := by
  simp [RowForm.operands, decodeRM_encodeRM z reg rm hrm, decodeField_append k n (by omega) hn.le]

theorem operands_rmRegImm8 (mk : Prefixes → RM → BitVec 3 → BitVec 8 → Instr) (v : BitVec 8) :
    (RowForm.rmRegImm8 mk).operands p z (encodeRM reg rm ++ (toBytes 1 v ++ rest)) = .ok (mk p rm reg v, rest) := by
  simp [RowForm.operands, decodeRM_encodeRM z reg rm hrm, decodeField_append 1 8]

end

theorem operands_imm {z : Size} {p : Prefixes} {n k : Nat} (hn : n = 8 * k) (mk : Prefixes → BitVec n → Instr)
    (v : BitVec n) (rest : List Byte) :
    (RowForm.imm n mk).operands p z (toBytes k v ++ rest) = .ok (mk p v, rest) := by
  simp [RowForm.operands, decodeField_append k n (by omega) hn.le]

/-- The opcode, the row and its operands are read in turn (steps 2 to 4 of R107). -/
theorem BodyOf.decodes {osz z : Size} {p : Prefixes} {body : List Byte} {i : Instr} (h : BodyOf osz z p body i)
    (rest : List Byte) : ∃ row bs f, decodeOpcode osz (body ++ rest) = .ok (row, bs) ∧ row.form bs = .ok f ∧
      f.operands p z bs = .ok (i, rest) := by
  cases h with
  | plain hop => exact ⟨_, _, _, hop _, rfl, rfl⟩
  | imm v hop hn => exact ⟨_, _, _, List.append_assoc .. ▸ hop _, rfl, operands_imm hn _ v rest⟩
  | modrm hop hrm => exact ⟨_, _, _, List.append_assoc .. ▸ hop _, rfl, operands_modrm hrm rest _⟩
  | digit hop hg hrm => exact ⟨_, _, _, List.append_assoc .. ▸ hop _, form_digits hg _ _, operands_modrm hrm rest _⟩
  | digitImm v hop hg hrm hn =>
    simp only [List.append_assoc]
    exact ⟨_, _, _, hop _, form_digits hg _ _, operands_rmImm hrm rest hn _ v⟩
  | reg hop hrm => exact ⟨_, _, _, List.append_assoc .. ▸ hop _, rfl, operands_rmReg hrm rest _⟩
  | regImm v hop hrm =>
    simp only [List.append_assoc]
    exact ⟨_, _, _, hop _, rfl, operands_rmRegImm8 hrm rest _ v⟩

theorem Instr.operandSize_of_wellFormed {dflt : Size} {i : Instr} (h : i.wellFormed dflt = true) {o : Size}
    (ho : i.parts.opsize = some o) : i.parts.pre.operandSize dflt = o := by
  simp only [Instr.wellFormed, Parts.sizeOk, ho, Bool.and_eq_true, beq_iff_eq] at h
  exact h.1

theorem Instr.rm_of_wellFormed {dflt : Size} {i : Instr} (h : i.wellFormed dflt = true) {rm : RM}
    (hrm : i.parts.rm = some rm) : rm.wellFormed (i.parts.pre.addressSize dflt) = true := by
  simp only [Instr.wellFormed, Parts.rmOk, hrm, Bool.and_eq_true] at h
  exact h.2

/-- The bytes of an encodable instruction decode to the first row with that encoding (R107, R112). -/
theorem decode_encode {dflt : Size} {i : Instr} (h : i.wellFormed dflt = true) (rest : List Byte) :
    decode dflt (encode i ++ rest) = .ok (canonical i, rest) := by
  have hbody := encodeBody_bodyOf i (fun _ => Instr.operandSize_of_wellFormed h) fun _ => Instr.rm_of_wellFormed h
  obtain ⟨row, bs, f, hop, hform, hoperands⟩ := hbody.decodes rest
  obtain ⟨b, tail, hb, hprefix⟩ := encodeBody_head i
  rw [hb, List.cons_append] at hop
  rw [encode, hb, List.append_assoc, List.cons_append, decode, decodePrefixes_encodePrefixes _ b hprefix]
  dsimp only
  rw [hop]
  dsimp only
  rw [hform]
  exact hoperands

end Sys2Proof

namespace Sys2Proof.Machine

open Sys2Proof

/-- A second spelling calls the same shared meaning as the first row with its encoding, for as many bytes (R112). -/
theorem exec_canonical (i : Instr) (s : State) : exec (canonical i) s = exec i s := by
  cases i <;> rfl

/-- Settles O23: the bytes decode to the first row with that encoding, which has the meaning of the instruction. -/
theorem stepRunsEncodedInstruction : Obligations.StepRunsEncodedInstruction := by
  intro s i rest hin hwf hfetch
  rw [← exec_canonical i s]
  simp [step, hin, hfetch, decode_encode hwf rest]

end Sys2Proof.Machine

/-! PROOFS. The encoding (`30_encoding.md`): what the decoder and the encoder answer for one another, prefixes in any order, what is refused by name, and the fields that have no effect. -/

namespace Sys2Proof

open Sys2Proof.Machine

/-! ## The round trip -/

/-- Settles O1: `decode_encode`, which reads prefixes, opcode, row and operands in turn. -/
theorem decodeEncodeRoundTrip : Obligations.DecodeEncodeRoundTrip :=
  fun _ _ rest h => decode_encode h rest

/-- Settles O3: each word is evaluated. -/
theorem sampleWordsDecode : Obligations.SampleWordsDecode :=
  ⟨rfl, rfl, rfl, rfl, rfl, rfl, rfl, rfl, rfl, rfl, rfl, rfl, rfl, rfl, rfl, rfl, rfl, rfl, rfl, rfl, rfl⟩

theorem encode_canonical (i : Instr) : encode (canonical i) = encode i := by
  cases i <;> rfl

/-- Settles O8: the two rows are encoded alike, and they call the same shared meaning. -/
theorem secondSpellingsAreOneInstruction : Obligations.SecondSpellingsAreOneInstruction :=
  fun i s => ⟨encode_canonical i, exec_canonical i s⟩

/-- Settles O22: `step` inside `PROGRAM` is the meaning of what the fetched bytes decode to. -/
theorem stepRunsDecodedInstruction : Obligations.StepRunsDecodedInstruction := by
  intro s i rest hin hdecode
  simp [step, hin, hdecode]

/-! ## Prefixes by their kinds -/

/-- The kinds of the prefixes that are admitted (R92); `F0`, `F2` and `F3` are of none (R93). -/
def PrefixByte.kind : PrefixByte → Option PrefixKind
  | .opsize => some .opsize
  | .addrsize => some .addrsize
  | .seg _ => some .override
  | .lock => none
  | .rep => none

theorem prefixKind_eq (b : Byte) : prefixKind b = (prefixByte b).bind PrefixByte.kind := by
  unfold prefixByte
  split
  case h_12 => simp_all [prefixKind]
  all_goals rfl

/-- Whether one of the kind came before. -/
def Prefixes.has (p : Prefixes) : PrefixKind → Bool
  | .opsize => p.opsize
  | .addrsize => p.addrsize
  | .override => p.seg.isSome

/-- The prefixes with what one more byte says of them. -/
def Prefixes.add (p : Prefixes) (b : Byte) : Prefixes :=
  match prefixByte b with
  | some .opsize => { p with opsize := true }
  | some .addrsize => { p with addrsize := true }
  | some (.seg s) => { p with seg := some s }
  | _ => p

/-- What a byte of each kind is read as. -/
theorem prefixByte_of_kind {b : Byte} {k : PrefixKind} (h : prefixKind b = some k) :
    (k = .opsize ∧ prefixByte b = some .opsize) ∨ (k = .addrsize ∧ prefixByte b = some .addrsize) ∨
      (k = .override ∧ ∃ s, prefixByte b = some (.seg s)) := by
  rw [prefixKind_eq] at h
  cases hb : prefixByte b with
  | none => simp [hb] at h
  | some x => cases x <;> simp_all [PrefixByte.kind]

/-- Reading one byte of a kind: a second of its kind is refused (R93), the first is kept (R92). -/
theorem decodePrefixes_cons_of_kind {b : Byte} {k : PrefixKind} (h : prefixKind b = some k) (p : Prefixes)
    (bs : List Byte) : decodePrefixes p (b :: bs) =
      if p.has k then .error .repeatedPrefix else decodePrefixes (p.add b) bs := by
  obtain ⟨rfl, hb⟩ | ⟨rfl, hb⟩ | ⟨rfl, s, hb⟩ := prefixByte_of_kind h <;>
    simp [decodePrefixes, Prefixes.has, Prefixes.add, hb]

theorem Prefixes.has_add {b : Byte} {k : PrefixKind} (h : prefixKind b = some k) (p : Prefixes) (k' : PrefixKind) :
    (p.add b).has k' = (decide (k' = k) || p.has k') := by
  obtain ⟨rfl, hb⟩ | ⟨rfl, hb⟩ | ⟨rfl, s, hb⟩ := prefixByte_of_kind h <;>
    cases k' <;> simp [add, has, hb]

/-- Prefixes of two kinds say different things. -/
theorem Prefixes.add_comm {b c : Byte} {k k' : PrefixKind} (hb : prefixKind b = some k) (hc : prefixKind c = some k')
    (hne : k ≠ k') (p : Prefixes) : (p.add b).add c = (p.add c).add b := by
  obtain ⟨rfl, hb⟩ | ⟨rfl, hb⟩ | ⟨rfl, s, hb⟩ := prefixByte_of_kind hb <;>
    obtain ⟨rfl, hc⟩ | ⟨rfl, hc⟩ | ⟨rfl, t, hc⟩ := prefixByte_of_kind hc <;>
      simp_all [add]

/-- What a list of admitted bytes adds up to after the prefixes `p`; none where a kind comes twice (R93). -/
def Prefixes.addAll (p : Prefixes) : List Byte → Option Prefixes
  | [] => some p
  | b :: l =>
    match prefixKind b with
    | .none => .none
    | some k => if p.has k then .none else (p.add b).addAll l

theorem Prefixes.addAll_cons {b : Byte} {k : PrefixKind} (h : prefixKind b = some k) (p : Prefixes) (l : List Byte) :
    p.addAll (b :: l) = if p.has k then .none else (p.add b).addAll l := by
  simp [addAll, h]

/-- Every byte is of one of the kinds that R92 admits. -/
def Admitted (l : List Byte) : Prop := ∀ b ∈ l, prefixKind b ≠ none

theorem admitted_cons {b : Byte} {l : List Byte} : Admitted (b :: l) ↔ (∃ k, prefixKind b = some k) ∧ Admitted l := by
  simp [Admitted, Option.ne_none_iff_exists']

/-- Reading admitted bytes and what comes after them: the list is summed up, or a kind came twice. -/
theorem decodePrefixes_append {l : List Byte} (hl : Admitted l) (p : Prefixes) (bs : List Byte) :
    decodePrefixes p (l ++ bs) =
      match p.addAll l with
      | none => .error .repeatedPrefix
      | some q => decodePrefixes q bs := by
  induction l generalizing p with
  | nil => rfl
  | cons b l ih =>
    obtain ⟨⟨k, hk⟩, hl⟩ := admitted_cons.mp hl
    rw [List.cons_append, decodePrefixes_cons_of_kind hk, Prefixes.addAll_cons hk]
    split
    · rfl
    · exact ih hl _

theorem decode_append_of_none {l : List Byte} (hl : Admitted l) (h : Prefixes.none.addAll l = none) (dflt : Size)
    (bs : List Byte) : decode dflt (l ++ bs) = .error .repeatedPrefix := by
  simp [decode, decodePrefixes_append hl, h]

/-- After prefixes that are no two of one kind, decoding goes on with the bytes that follow. -/
theorem decodePrefixes_append_of_some {l : List Byte} (hl : Admitted l) {q : Prefixes}
    (h : Prefixes.none.addAll l = some q) (bs : List Byte) :
    decodePrefixes Prefixes.none (l ++ bs) = decodePrefixes q bs := by
  simp [decodePrefixes_append hl, h]

theorem decodePrefixes_cons_of_none {b : Byte} (hb : prefixByte b = none) (p : Prefixes) (bs : List Byte) :
    decodePrefixes p (b :: bs) = .ok (p, b :: bs) := by
  simp [decodePrefixes, hb]

/-! ## The order of prefixes -/

/-- Two neighbours may change places: they are of one kind, and both orders are refused, or they say different things. -/
theorem Prefixes.addAll_perm {l l' : List Byte} (h : l.Perm l') (hl : Admitted l) (p : Prefixes) :
    p.addAll l = p.addAll l' := by
  induction h generalizing p with
  | nil => rfl
  | cons b _ ih =>
    obtain ⟨⟨k, hk⟩, hl⟩ := admitted_cons.mp hl
    simp only [addAll_cons hk, ih hl]
  | swap b c l =>
    obtain ⟨⟨k, hk⟩, hl⟩ := admitted_cons.mp hl
    obtain ⟨⟨j, hj⟩, -⟩ := admitted_cons.mp hl
    simp only [addAll_cons hk, addAll_cons hj, has_add hk, has_add hj]
    by_cases hne : k = j
    · simp [hne]
    · rw [add_comm hk hj hne]
      cases p.has k <;> simp [hne, Ne.symm hne]
  | trans h _ ih ih' =>
    rw [ih hl, ih' fun b hb => hl b (h.mem_iff.mpr hb)]

/-- Settles O4: the prefixes that a list adds up to do not depend on its order. -/
theorem prefixOrderHasNoEffect : Obligations.PrefixOrderHasNoEffect := by
  intro dflt l l' rest hl hperm
  have hl' : Admitted l' := fun b hb => hl b (hperm.mem_iff.mpr hb)
  simp only [decode, decodePrefixes_append hl, decodePrefixes_append hl', Prefixes.addAll_perm hperm hl]

/-! ## Refused prefixes -/

theorem Prefixes.has_of_addAll {l : List Byte} {p q : Prefixes} (h : p.addAll l = some q) {k : PrefixKind}
    (hk : p.has k = true ∨ some k ∈ l.map prefixKind) : q.has k = true := by
  induction l generalizing p with
  | nil =>
    cases h
    simpa using hk
  | cons b l ih =>
    cases hb : prefixKind b with
    | none => simp [addAll, hb] at h
    | some j =>
      rw [addAll_cons hb] at h
      split at h
      · cases h
      · apply ih h
        simp only [has_add hb, Bool.or_eq_true, decide_eq_true_eq]
        simp only [List.map_cons, hb, List.mem_cons, Option.some.injEq] at hk
        tauto

theorem decodePrefixes_lock (p : Prefixes) (bs : List Byte) :
    decodePrefixes p (0xF0#8 :: bs) = .error .lockPrefix := rfl

theorem decodePrefixes_rep {b : Byte} (h : b = 0xF2 ∨ b = 0xF3) (p : Prefixes) (bs : List Byte) :
    decodePrefixes p (b :: bs) = .error .repPrefix := by
  obtain rfl | rfl := h <;> rfl

theorem decode_of_decodePrefixes_error {dflt : Size} {bs : List Byte} {e : DecodeError}
    (h : decodePrefixes Prefixes.none bs = .error e) : decode dflt bs = .error e := by
  simp [decode, h]

/-- Settles O5: where the prefixes before are not refused themselves, the byte is read after them. -/
theorem refusedPrefixBytes : Obligations.RefusedPrefixBytes := by
  intro dflt l rest hl
  cases hq : Prefixes.none.addAll l with
  | none =>
    have hrep (b : Byte) := decode_append_of_none hl hq dflt (b :: rest)
    exact ⟨fun b _ => ⟨_, by simp, hrep b⟩, fun b _ _ => hrep b⟩
  | some q =>
    refine ⟨fun b hb => ?_, fun b hb hmem => ?_⟩
    · have hb : b = 0xF0#8 ∨ b = 0xF2 ∨ b = 0xF3 := by simpa using hb
      rcases hb with rfl | hb
      · refine ⟨.lockPrefix, by simp, decode_of_decodePrefixes_error ?_⟩
        rw [decodePrefixes_append_of_some hl hq, decodePrefixes_lock]
      · refine ⟨.repPrefix, by simp, decode_of_decodePrefixes_error ?_⟩
        rw [decodePrefixes_append_of_some hl hq, decodePrefixes_rep hb]
    · obtain ⟨k, hk⟩ := Option.ne_none_iff_exists'.mp hb
      have hhas : q.has k = true := Prefixes.has_of_addAll hq (.inr (hk ▸ hmem))
      apply decode_of_decodePrefixes_error
      rw [decodePrefixes_append_of_some hl hq, decodePrefixes_cons_of_kind hk, if_pos hhas]

/-! ## Opcodes and digits that are not listed -/

theorem oneByteOpcode_of_not_listed {b : Byte} (h : b ∉ listedOneByte) (z : Size) : oneByteOpcode z b = none := by
  unfold oneByteOpcode
  split
  case h_30 => rfl
  all_goals exact absurd (by decide) h

theorem twoByteOpcode_of_not_listed {b : Byte} (h : b ∉ listedTwoByte) (z : Size) : twoByteOpcode z b = none := by
  unfold twoByteOpcode
  split
  case h_23 => rfl
  all_goals exact absurd (by decide) h

/-- An opcode that is listed with digits ends the prefixes and opens a row that has those digits only (R105, R106). -/
theorem opens_listedDigits {o : List Byte} {ds : List (BitVec 3)} (h : (o, ds) ∈ listedDigits) (z : Size) :
    (∃ b bs, o = b :: bs ∧ prefixByte b = none) ∧
      ∃ f, Opens z o (.digits f) ∧ ∀ d g, f d = some g → d ∈ ds := by
  simp only [listedDigits, List.mem_cons, Prod.mk.injEq, List.not_mem_nil, or_false] at h
  rcases h with ⟨rfl, rfl⟩ | ⟨rfl, rfl⟩ | ⟨rfl, rfl⟩ | ⟨rfl, rfl⟩ | ⟨rfl, rfl⟩ | ⟨rfl, rfl⟩ | ⟨rfl, rfl⟩ | ⟨rfl, rfl⟩ |
    ⟨rfl, rfl⟩ | ⟨rfl, rfl⟩ | ⟨rfl, rfl⟩
  all_goals
    refine ⟨⟨_, _, rfl, rfl⟩, _, fun _ => rfl, fun d g hg => ?_⟩
    split at hg <;> cases hg <;> decide

/-- After encoded prefixes, decoding goes on with the opcode (steps 1 and 2 of R107). -/
theorem decode_encodePrefixes_of_opcode_error {dflt : Size} {p : Prefixes} {b : Byte} (hb : prefixByte b = none)
    {bs : List Byte} {e : DecodeError} (h : decodeOpcode (p.operandSize dflt) (b :: bs) = .error e) :
    decode dflt (encodePrefixes p ++ b :: bs) = .error e := by
  simp [decode, decodePrefixes_encodePrefixes p b hb, h]

theorem decode_encodePrefixes_of_form_error {dflt : Size} {p : Prefixes} {b : Byte} (hb : prefixByte b = none)
    {bs rest : List Byte} {row : OpcodeRow} {e : DecodeError}
    (hop : decodeOpcode (p.operandSize dflt) (b :: bs) = .ok (row, rest)) (h : row.form rest = .error e) :
    decode dflt (encodePrefixes p ++ b :: bs) = .error e := by
  simp [decode, decodePrefixes_encodePrefixes p b hb, hop, h]

theorem form_digits_of_not_listed {f : BitVec 3 → Option RowForm} {b : Byte} (h : f (b.extractLsb' 3 3) = none)
    (bs : List Byte) : (OpcodeRow.digits f).form (b :: bs) = .error (.unlistedDigit (b.extractLsb' 3 3)) := by
  simp [OpcodeRow.form, h]

/-- Settles O6: the tables have no row for the opcode, or its row has none for the digit. -/
theorem unlistedEncodingsRefused : Obligations.UnlistedEncodingsRefused := by
  intro dflt p rest
  refine ⟨fun b hlisted hb h0F => ?_, fun b hlisted => ?_, fun o ds b hlisted hdigit => ?_⟩
  · apply decode_encodePrefixes_of_opcode_error hb
    simp only [decodeOpcode, if_neg h0F, oneByteOpcode_of_not_listed hlisted]
  · apply decode_encodePrefixes_of_opcode_error rfl
    simp [decodeOpcode, twoByteOpcode_of_not_listed hlisted]
  · obtain ⟨⟨c, tail, rfl, hc⟩, f, hopens, hf⟩ := opens_listedDigits hlisted (p.operandSize dflt)
    have hnone : f (b.extractLsb' 3 3) = none := Option.eq_none_iff_forall_ne_some.mpr fun g hg => hdigit (hf _ g hg)
    exact decode_encodePrefixes_of_form_error hc (hopens (b :: rest)) (form_digits_of_not_listed hnone rest)

/-! ## The `reg` field of SETcc -/

/-- The opcodes 0F 90 to 0F 9F are rows without digit and without register operand (R106). -/
theorem twoByteOpcode_setcc {b : Byte} (hlo : 0x90 ≤ b) (hhi : b ≤ 0x9F) :
    ∃ mk, ∀ z, twoByteOpcode z b = some (.found (.modrm mk)) := by
  have hmem : b ∈ [0x90#8, 0x91, 0x92, 0x93, 0x94, 0x95, 0x96, 0x97, 0x98, 0x99, 0x9A, 0x9B, 0x9C, 0x9D, 0x9E, 0x9F] := by
    decide +revert
  simp only [List.mem_cons, List.not_mem_nil, or_false] at hmem
  rcases hmem with rfl | rfl | rfl | rfl | rfl | rfl | rfl | rfl | rfl | rfl | rfl | rfl | rfl | rfl | rfl | rfl
  all_goals exact ⟨_, fun _ => rfl⟩

/-- Two ModRM bytes that differ in the `reg` field only name one `r/m` operand (R94). -/
theorem decodeRM_reg {m m' : Byte} (hmod : m.extractLsb' 6 2 = m'.extractLsb' 6 2)
    (hrm : m.extractLsb' 0 3 = m'.extractLsb' 0 3) (z : Size) (bs : List Byte) :
    decodeRM z (m' :: bs) = (decodeRM z (m :: bs)).map fun (rm, _, rest) => (rm, m'.extractLsb' 3 3, rest) := by
  simp only [decodeRM, hmod, hrm]
  split
  · rfl
  · split <;> rfl

theorem operands_modrm_reg {m m' : Byte} (hmod : m.extractLsb' 6 2 = m'.extractLsb' 6 2)
    (hrm : m.extractLsb' 0 3 = m'.extractLsb' 0 3) (mk : Prefixes → RM → Instr) (p : Prefixes) (z : Size)
    (bs : List Byte) : (RowForm.modrm mk).operands p z (m :: bs) = (RowForm.modrm mk).operands p z (m' :: bs) := by
  rw [RowForm.operands, RowForm.operands, decodeRM_reg hmod hrm]
  cases decodeRM z (m :: bs) <;> rfl

/-- Settles O7: the row found takes the `r/m` operand from the ModRM byte, and nothing from its `reg` field. -/
theorem setccRegFieldIgnored : Obligations.SetccRegFieldIgnored := by
  intro dflt l rest b m m' hl hlo hhi hmod hrm
  obtain ⟨mk, hrow⟩ := twoByteOpcode_setcc hlo hhi
  cases hq : Prefixes.none.addAll l with
  | none => rw [decode_append_of_none hl hq, decode_append_of_none hl hq]
  | some q =>
    have hopcode (tail : List Byte) (z : Size) :
        decodeOpcode z (0x0F :: b :: tail) = .ok (.found (.modrm mk), tail) := by
      simp [decodeOpcode, hrow]
    have h0F (tail : List Byte) : decodePrefixes q (0x0F :: tail) = .ok (q, 0x0F :: tail) :=
      decodePrefixes_cons_of_none rfl q tail
    simp only [decode, decodePrefixes_append_of_some hl hq, h0F, hopcode, OpcodeRow.form]
    exact operands_modrm_reg hmod hrm mk q _ rest

end Sys2Proof

/-! PROOFS. What decodes is encodable: the decoder answers no second spelling, takes the operand in a form of its address size, and leaves the bytes after the instruction as they are (`30_encoding.md` rules R104, R107, R112). -/

namespace Sys2Proof

/-! ## The bytes that are left -/

/-- What a field can answer: its value is that of the bytes taken (R101, R102). -/
theorem decodeField_ok {n : Nat} {bs rest : List Byte} {v : BitVec n} (h : decodeField n bs = .ok (v, rest)) :
    ∃ ds, ds.length = n / 8 ∧ bs = ds ++ rest ∧ v = ofBytes n ds := by
  unfold decodeField at h
  split at h
  · cases h
  · next ds _ hds =>
    cases h
    obtain ⟨hbs, hlen⟩ := takeBytes_ok hds
    exact ⟨ds, hlen, hbs, rfl⟩

theorem suffix_of_decodeField {n : Nat} {bs rest : List Byte} {v : BitVec n} (h : decodeField n bs = .ok (v, rest)) :
    rest <:+ bs := by
  obtain ⟨ds, -, rfl, -⟩ := decodeField_ok h
  exact List.suffix_append ds rest

theorem suffix_of_decodePrefixes {p q : Prefixes} {bs rest : List Byte} (h : decodePrefixes p bs = .ok (q, rest)) :
    rest <:+ bs := by
  induction bs generalizing p with
  | nil => cases h
  | cons b bs ih =>
    rw [decodePrefixes] at h
    split at h
    case h_1 => cases h; exact List.suffix_rfl
    case h_2 | h_3 => cases h
    all_goals
      split at h
      · cases h
      · exact (ih h).trans (List.suffix_cons b bs)

theorem suffix_of_decodeOpcode {z : Size} {bs rest : List Byte} {row : OpcodeRow}
    (h : decodeOpcode z bs = .ok (row, rest)) : rest <:+ bs := by
  obtain ⟨op, rfl, -⟩ := decodeOpcode_encodesAs h
  exact List.suffix_append op rest

/-! ## The ModRM operand -/

/-- What a displacement can answer: none for `mod` = 0 only (R98, R99). -/
theorem decodeDisp_ok {n : Nat} {md : BitVec 2} {bs rest : List Byte} {d : Disp n}
    (h : decodeDisp n md bs = .ok (d, rest)) : (d = .none → md = 0) ∧ rest <:+ bs := by
  unfold decodeDisp at h
  split at h
  · cases h; simp
  all_goals
    split at h
    · cases h
    · next hv => cases h; exact ⟨nofun, suffix_of_decodeField hv⟩

theorem Base16.ofBits_eq_bp {r : BitVec 3} (h : Base16.ofBits r = .bp) : r = 6 := by
  decide +revert

theorem Index.wellFormed_ofBits {x : BitVec 3} {ss : BitVec 2} {i : Index} (h : Index.ofBits x ss = .ok i) :
    i.wellFormed = true := by
  unfold Index.ofBits at h
  split at h
  · split at h <;> cases h
    rfl
  · next hx => cases h; simpa [Index.wellFormed] using hx

/-- What a 16-bit memory operand can answer: the direct form, or a base with a displacement (R98). -/
theorem decodeMem16_cases {md : BitVec 2} {r : BitVec 3} {bs rest : List Byte} {m : Mem16}
    (h : decodeMem16 md r bs = .ok (m, rest)) :
    ((md = 0 ∧ r = 6) ∧ ∃ v, m = .direct v ∧ decodeField 16 bs = .ok (v, rest)) ∨
      (¬(md = 0 ∧ r = 6) ∧ ∃ d, m = .based (Base16.ofBits r) d ∧ decodeDisp 16 md bs = .ok (d, rest)) := by
  unfold decodeMem16 at h
  split at h
  · next hdirect =>
    split at h <;> cases h
    next hv => exact .inl ⟨hdirect, _, rfl, hv⟩
  · next hdirect =>
    split at h <;> cases h
    next hd => exact .inr ⟨hdirect, _, rfl, hd⟩

/-- What a memory operand with a SIB byte can answer: an index, and a displacement alone or with a base (R100). -/
theorem decodeSib_cases {md : BitVec 2} {b : Byte} {bs rest : List Byte} {m : Mem32}
    (h : decodeSib md (b :: bs) = .ok (m, rest)) :
    ∃ x, Index.ofBits (b.extractLsb' 3 3) (b.extractLsb' 6 2) = .ok x ∧
      (((md = 0 ∧ b.extractLsb' 0 3 = 5) ∧ ∃ v, m = .sibNoBase x v ∧ decodeField 32 bs = .ok (v, rest)) ∨
        (¬(md = 0 ∧ b.extractLsb' 0 3 = 5) ∧
          ∃ d, m = .sib (b.extractLsb' 0 3) x d ∧ decodeDisp 32 md bs = .ok (d, rest))) := by
  rw [decodeSib] at h
  split at h
  · cases h
  next x hx =>
    refine ⟨x, hx, ?_⟩
    split at h
    · next hbase =>
      split at h <;> cases h
      next hv => exact .inl ⟨hbase, _, rfl, hv⟩
    · next hbase =>
      split at h <;> cases h
      next hd => exact .inr ⟨hbase, _, rfl, hd⟩

/-- What a 32-bit memory operand without SIB byte can answer: the direct form, or a base with a displacement (R99). -/
theorem decodeMem32_cases {md : BitVec 2} {r : BitVec 3} (hr : r ≠ 4) {bs rest : List Byte} {m : Mem32}
    (h : decodeMem32 md r bs = .ok (m, rest)) :
    ((md = 0 ∧ r = 5) ∧ ∃ v, m = .direct v ∧ decodeField 32 bs = .ok (v, rest)) ∨
      (¬(md = 0 ∧ r = 5) ∧ ∃ d, m = .based r d ∧ decodeDisp 32 md bs = .ok (d, rest)) := by
  rw [decodeMem32, if_neg hr] at h
  split at h
  · next hdirect =>
    split at h <;> cases h
    next hv => exact .inl ⟨hdirect, _, rfl, hv⟩
  · next hdirect =>
    split at h <;> cases h
    next hd => exact .inr ⟨hdirect, _, rfl, hd⟩

theorem decodeMem32_sib (md : BitVec 2) (bs : List Byte) : decodeMem32 md 4 bs = decodeSib md bs :=
  if_pos rfl

/-- The form of a memory operand is that of the address size (R94). -/
theorem decodeMem_cases {z : Size} {md : BitVec 2} {r : BitVec 3} {bs rest : List Byte} {m : MemOperand}
    (h : decodeMem z md r bs = .ok (m, rest)) :
    (z = .s16 ∧ ∃ m', m = .a16 m' ∧ decodeMem16 md r bs = .ok (m', rest)) ∨
      (z = .s32 ∧ ∃ m', m = .a32 m' ∧ decodeMem32 md r bs = .ok (m', rest)) := by
  cases z <;> simp only [decodeMem] at h <;> split at h <;> cases h
  · next hm => exact .inl ⟨rfl, _, rfl, hm⟩
  · next hm => exact .inr ⟨rfl, _, rfl, hm⟩

/-- A 16-bit memory operand is read in the form it is encoded in: BP without displacement never (R98). -/
theorem decodeMem16_ok {md : BitVec 2} {r : BitVec 3} {bs rest : List Byte} {m : Mem16}
    (h : decodeMem16 md r bs = .ok (m, rest)) : m.wellFormed = true ∧ rest <:+ bs := by
  obtain ⟨-, v, rfl, hv⟩ | ⟨hdirect, d, rfl, hd⟩ := decodeMem16_cases h
  · exact ⟨rfl, suffix_of_decodeField hv⟩
  · obtain ⟨hnone, hsuffix⟩ := decodeDisp_ok hd
    refine ⟨?_, hsuffix⟩
    unfold Mem16.wellFormed
    split
    · next heq =>
      obtain ⟨hbase, hdisp⟩ := Mem16.based.inj heq
      exact absurd ⟨hnone hdisp, Base16.ofBits_eq_bp hbase⟩ hdirect
    · rfl

/-- A base that was read has a displacement where it would mean no base (R99, R100). -/
theorem base32_ok {md : BitVec 2} {b : BitVec 3} {d : Disp 32} (h : ¬(md = 0 ∧ b = 5)) (hnone : d = .none → md = 0) :
    (!(b == 5 && d == .none)) = true := by
  simp only [Bool.not_eq_true', Bool.and_eq_false_iff, beq_eq_false_iff_ne]
  by_contra hcon
  push Not at hcon
  exact h ⟨hnone hcon.2, hcon.1⟩

theorem decodeSib_ok {md : BitVec 2} {bs rest : List Byte} {m : Mem32} (h : decodeSib md bs = .ok (m, rest)) :
    m.wellFormed = true ∧ rest <:+ bs := by
  cases bs with
  | nil => cases h
  | cons b bs =>
    obtain ⟨x, hx, ⟨-, v, rfl, hv⟩ | ⟨hbase, d, rfl, hd⟩⟩ := decodeSib_cases h
    · exact ⟨Index.wellFormed_ofBits hx, (suffix_of_decodeField hv).trans (List.suffix_cons b bs)⟩
    · obtain ⟨hnone, hsuffix⟩ := decodeDisp_ok hd
      refine ⟨?_, hsuffix.trans (List.suffix_cons b bs)⟩
      rw [Mem32.wellFormed, Index.wellFormed_ofBits hx, base32_ok hbase hnone]
      rfl

/-- A 32-bit memory operand is read in the form it is encoded in (R99, R100). -/
theorem decodeMem32_ok {md : BitVec 2} {r : BitVec 3} {bs rest : List Byte} {m : Mem32}
    (h : decodeMem32 md r bs = .ok (m, rest)) : m.wellFormed = true ∧ rest <:+ bs := by
  by_cases hr : r = 4
  · subst hr
    exact decodeSib_ok h
  obtain ⟨-, v, rfl, hv⟩ | ⟨hdirect, d, rfl, hd⟩ := decodeMem32_cases hr h
  · exact ⟨rfl, suffix_of_decodeField hv⟩
  · obtain ⟨hnone, hsuffix⟩ := decodeDisp_ok hd
    refine ⟨?_, hsuffix⟩
    rw [Mem32.wellFormed, base32_ok hdirect hnone, Bool.and_true]
    simpa using hr

theorem decodeMem_ok {z : Size} {md : BitVec 2} {r : BitVec 3} {bs rest : List Byte} {m : MemOperand}
    (h : decodeMem z md r bs = .ok (m, rest)) : (RM.mem m).wellFormed z = true ∧ rest <:+ bs := by
  obtain ⟨rfl, m', rfl, hm⟩ | ⟨rfl, m', rfl, hm⟩ := decodeMem_cases h
  · simpa [RM.wellFormed] using decodeMem16_ok hm
  · simpa [RM.wellFormed] using decodeMem32_ok hm

/-- A ModRM operand that was read can be encoded under the address size (R94). -/
theorem decodeRM_ok {z : Size} {bs rest : List Byte} {rm : RM} {r : BitVec 3}
    (h : decodeRM z bs = .ok (rm, r, rest)) : rm.wellFormed z = true ∧ rest <:+ bs := by
  cases bs with
  | nil => cases h
  | cons b bs =>
    rw [decodeRM] at h
    split at h
    · cases h; exact ⟨rfl, List.suffix_cons b rest⟩
    split at h
    · cases h
    · next hm =>
      cases h
      obtain ⟨hwf, hsuffix⟩ := decodeMem_ok hm
      exact ⟨hwf, hsuffix.trans (List.suffix_cons b bs)⟩

/-! ## The rows -/

/-- The instruction is no second spelling, and it has these prefixes, this ModRM operand and, where its row is for one operand size, that size. -/
structure MadeOf (z : Size) (p : Prefixes) (rm : Option RM) (i : Instr) : Prop where
  canonical : canonical i = i
  pre : i.parts.pre = p
  opsize : i.parts.opsize.getD z = z
  rm : i.parts.rm = rm

/-- Whatever operands it is given, the row makes an instruction of them. -/
def RowForm.Makes (z : Size) : RowForm → Prop
  | .plain mk => ∀ p, MadeOf z p none (mk p)
  | .imm _ mk => ∀ p v, MadeOf z p none (mk p v)
  | .modrm mk => ∀ p rm, MadeOf z p (some rm) (mk p rm)
  | .rmImm _ mk => ∀ p rm v, MadeOf z p (some rm) (mk p rm v)
  | .rmReg mk => ∀ p rm r, MadeOf z p (some rm) (mk p rm r)
  | .rmRegImm8 mk => ∀ p rm r v, MadeOf z p (some rm) (mk p rm r v)

/-- The same of every row that an opcode stands for. -/
def OpcodeRow.Makes (z : Size) : OpcodeRow → Prop
  | .found f => f.Makes z
  | .digits f => ∀ d g, f d = some g → g.Makes z

theorem oneByteOpcode_makes {z : Size} {b : Byte} {row : OpcodeRow} (h : oneByteOpcode z b = some row) :
    row.Makes z := by
  unfold oneByteOpcode at h
  split at h <;> cases h
  -- the opcodes with a digit
  case h_13 | h_14 | h_15 | h_21 | h_22 | h_23 | h_24 | h_25 | h_26 =>
    intro d f hf
    dsimp only at hf
    split at hf <;> cases hf <;> cases z
    all_goals
      dsimp only [pick, RowForm.Makes]
      intros
      exact ⟨rfl, rfl, rfl, rfl⟩
  all_goals
    cases z
    all_goals
      dsimp only [OpcodeRow.Makes, pick, RowForm.Makes]
      intros
      exact ⟨rfl, rfl, rfl, rfl⟩

theorem twoByteOpcode_makes {z : Size} {b : Byte} {row : OpcodeRow} (h : twoByteOpcode z b = some row) :
    row.Makes z := by
  unfold twoByteOpcode at h
  split at h <;> cases h
  -- the opcodes with a digit
  case h_1 | h_2 =>
    intro d f hf
    dsimp only at hf
    split at hf <;> cases hf
    all_goals exact fun _ _ => ⟨rfl, rfl, rfl, rfl⟩
  all_goals
    cases z
    all_goals
      dsimp only [OpcodeRow.Makes, pick, RowForm.Makes]
      intros
      exact ⟨rfl, rfl, rfl, rfl⟩

theorem decodeOpcode_makes {z : Size} {bs rest : List Byte} {row : OpcodeRow}
    (h : decodeOpcode z bs = .ok (row, rest)) : row.Makes z := by
  unfold decodeOpcode at h
  split at h
  · cases h
  split at h
  · split at h
    · cases h
    · split at h <;> cases h
      next hrow => exact twoByteOpcode_makes hrow
  · split at h <;> cases h
    next hrow => exact oneByteOpcode_makes hrow

theorem OpcodeRow.Makes.form {z : Size} {row : OpcodeRow} (hrow : row.Makes z) {bs : List Byte} {f : RowForm}
    (h : row.form bs = .ok f) : f.Makes z := by
  unfold OpcodeRow.form at h
  split at h
  · cases h; exact hrow
  · cases h
  · split at h <;> cases h
    next hf => exact hrow _ _ hf

/-- What the operands of a row can answer: an instruction of the row, with a ModRM operand that can be encoded. -/
theorem RowForm.Makes.operands {osz z : Size} {f : RowForm} (hf : f.Makes osz) {p : Prefixes} {bs rest : List Byte}
    {i : Instr} (h : f.operands p z bs = .ok (i, rest)) :
    (∃ rm, MadeOf osz p rm i ∧ ∀ x, rm = some x → x.wellFormed z = true) ∧ rest <:+ bs := by
  cases f with
  | plain mk =>
    cases h
    exact ⟨⟨_, hf p, nofun⟩, List.suffix_rfl⟩
  | imm n mk =>
    rw [RowForm.operands] at h
    split at h <;> cases h
    next hv => exact ⟨⟨_, hf p _, nofun⟩, suffix_of_decodeField hv⟩
  | modrm mk =>
    rw [RowForm.operands] at h
    split at h <;> cases h
    next hrm =>
      obtain ⟨hwf, hsuffix⟩ := decodeRM_ok hrm
      exact ⟨⟨_, hf p _, by rintro _ ⟨⟩; exact hwf⟩, hsuffix⟩
  | rmReg mk =>
    rw [RowForm.operands] at h
    split at h <;> cases h
    next hrm =>
      obtain ⟨hwf, hsuffix⟩ := decodeRM_ok hrm
      exact ⟨⟨_, hf p _ _, by rintro _ ⟨⟩; exact hwf⟩, hsuffix⟩
  | rmImm n mk =>
    rw [RowForm.operands] at h
    split at h
    · cases h
    next hrm =>
      split at h <;> cases h
      next hv =>
        obtain ⟨hwf, hsuffix⟩ := decodeRM_ok hrm
        exact ⟨⟨_, hf p _ _, by rintro _ ⟨⟩; exact hwf⟩, (suffix_of_decodeField hv).trans hsuffix⟩
  | rmRegImm8 mk =>
    rw [RowForm.operands] at h
    split at h
    · cases h
    next hrm =>
      split at h <;> cases h
      next hv =>
        obtain ⟨hwf, hsuffix⟩ := decodeRM_ok hrm
        exact ⟨⟨_, hf p _ _ _, by rintro _ ⟨⟩; exact hwf⟩, (suffix_of_decodeField hv).trans hsuffix⟩

/-- An instruction made under the operand size and the address size of its prefixes can be encoded. -/
theorem MadeOf.wellFormed {dflt : Size} {p : Prefixes} {rm : Option RM} {i : Instr}
    (hi : MadeOf (p.operandSize dflt) p rm i) (hrm : ∀ x, rm = some x → x.wellFormed (p.addressSize dflt) = true) :
    i.wellFormed dflt = true := by
  obtain ⟨-, rfl, hopsize, rfl⟩ := hi
  rw [Instr.wellFormed, Bool.and_eq_true]
  constructor
  · unfold Parts.sizeOk
    split
    · rfl
    · next ho => simpa [ho] using hopsize.symm
  · unfold Parts.rmOk
    split
    · rfl
    · next hx => exact hrm _ hx

/-- What the decoder can answer: an encodable instruction that is no second spelling, and the bytes after it. -/
theorem decode_ok {dflt : Size} {bs rest : List Byte} {i : Instr} (h : decode dflt bs = .ok (i, rest)) :
    i.wellFormed dflt = true ∧ canonical i = i ∧ rest <:+ bs := by
  unfold decode at h
  split at h
  · cases h
  next hp =>
    split at h
    · cases h
    next hop =>
      split at h
      · cases h
      next hform =>
        obtain ⟨⟨rm, hi, hrm⟩, hsuffix⟩ := ((decodeOpcode_makes hop).form hform).operands h
        exact ⟨hi.wellFormed hrm, hi.canonical,
          (hsuffix.trans (suffix_of_decodeOpcode hop)).trans (suffix_of_decodePrefixes hp)⟩

/-! ## The length -/

theorem Disp.length_encode_le {n : Nat} (d : Disp n) (hn : 8 ≤ n) : d.encode.length ≤ n / 8 := by
  cases d with
  | none => exact Nat.zero_le _
  | d8 v => simp only [Disp.encode, List.length_cons, List.length_nil]; omega
  | full v => simp [Disp.encode]

/-- A ModRM byte, a SIB byte and four bytes of displacement at most (R94, R99, R100). -/
theorem RM.size_le (rm : RM) : rm.size ≤ 6 := by
  have h16 (d : Disp 16) : d.encode.length ≤ 2 := d.length_encode_le (by omega)
  have h32 (d : Disp 32) : d.encode.length ≤ 4 := d.length_encode_le (by omega)
  rcases rm with r | (_ | ⟨b, d⟩) | (_ | ⟨b, d⟩ | ⟨b, x, d⟩ | _)
  · simp [RM.size_reg]
  · simp [RM.size_direct16]
  · rw [RM.size_based16]; have := h16 d; omega
  · simp [RM.size_direct32]
  · rw [RM.size_based32]; have := h32 d; omega
  · rw [RM.size_sib]; have := h32 d; omega
  · simp [RM.size_sibNoBase]

/-- Besides the ModRM operand there are five bytes at most: of an opcode and an immediate (R104). -/
theorem length_encodeBody_le (i : Instr) : (encodeBody i).length ≤ (i.parts.rm.elim 0 RM.size) + 5 := by
  cases i <;> simp [encodeBody, Instr.parts, length_encodeRM]

theorem length_encodePrefixes_le (p : Prefixes) : (encodePrefixes p).length ≤ 3 := by
  have ho := p.opsize.toNat_le
  have ha := p.addrsize.toNat_le
  have hg := p.seg.isSome.toNat_le
  rw [length_encodePrefixes]
  omega

theorem instrLength_le (i : Instr) : instrLength i ≤ 14 := by
  have hpre := length_encodePrefixes_le i.parts.pre
  have hbody := length_encodeBody_le i
  have hrm : i.parts.rm.elim 0 RM.size ≤ 6 := by
    cases i.parts.rm with
    | none => exact Nat.zero_le _
    | some rm => exact rm.size_le
  rw [instrLength, encode, List.length_append]
  omega

/-- Settles O2: the row found makes the instruction, and what the decoder leaves is what stands after its bytes. -/
theorem decodedInstructionIsEncodable : Obligations.DecodedInstructionIsEncodable := by
  intro dflt bs rest i h
  obtain ⟨hwf, hcanonical, used, rfl⟩ := decode_ok h
  have hlen := length_of_decode h
  rw [List.length_append] at hlen
  exact ⟨hwf, hcanonical, ⟨used, rfl, by omega⟩, instrLength_le i⟩

end Sys2Proof

/-! PROOFS. Effective addresses from the bytes of the encoding (`30_encoding.md` rules R98, R99, R100). -/

namespace Sys2Proof.Machine

open Sys2Proof

/-! ## Displacements -/

theorem toNat_ofBytes (n : Nat) (bs : List Byte) : (ofBytes n bs).toNat = bytesToNat bs % 2 ^ n := by
  simp [ofBytes]

/-- An offset whose displacement is all there is of it besides the base (R98, R99, R100). -/
theorem displacementAlone_of_decodeField {n base : Nat} {bs rest : List Byte} {v : BitVec n} {off : Dword}
    (h : decodeField n bs = .ok (v, rest)) (hoff : off.toNat = (base + v.toNat) % 2 ^ n) :
    DisplacementAlone n base bs rest off := by
  obtain ⟨ds, hlen, hbs, rfl⟩ := decodeField_ok h
  rw [toNat_ofBytes, Nat.add_mod_mod] at hoff
  exact ⟨ds, hlen, hbs, hoff⟩

theorem decodeField8_ok {bs rest : List Byte} {v : Byte} (h : decodeField 8 bs = .ok (v, rest)) : bs = v :: rest := by
  obtain ⟨ds, hlen, rfl, rfl⟩ := decodeField_ok h
  obtain ⟨d, rfl⟩ := List.length_eq_one_iff.mp hlen
  simp [ofBytes, bytesToNat]

/-- Adding a sign-extended byte is adding its signed value mod 2^n. -/
theorem add_toNat_signExtend_emod (n base : Nat) (d : Byte) :
    (((base + (d.signExtend n).toNat) % 2 ^ n : Nat) : Int) = (base + d.toInt) % 2 ^ n := by
  have hpos : (2 ^ n : Int) ≠ 0 := by positivity
  have hval : ((d.signExtend n).toNat : Int) = d.toInt % 2 ^ n := by
    simp [BitVec.signExtend, Int.emod_nonneg _ hpos]
  push_cast
  rw [hval, Int.add_emod_emod]

/-- The offset of a base and the displacement that was read for its `mod` (R98, R99, R100). -/
theorem offsetIs_of_decodeDisp {n base : Nat} {md : BitVec 2} {bs rest : List Byte} {d : Disp n} {off : Dword}
    (h : decodeDisp n md bs = .ok (d, rest)) (hoff : off.toNat = (base + (Disp.value d).toNat) % 2 ^ n) :
    OffsetIs n md base bs rest off := by
  unfold decodeDisp at h
  split at h
  · cases h
    exact ⟨fun _ => ⟨rfl, by simpa [Disp.value] using hoff⟩, nofun, nofun⟩
  · split at h <;> cases h
    next hv =>
      refine ⟨nofun, fun _ => ⟨_, decodeField8_ok hv, ?_⟩, nofun⟩
      rw [hoff]
      exact add_toNat_signExtend_emod n base _
  · next h0 h1 =>
    split at h <;> cases h
    next hv => exact ⟨fun h => absurd h h0, fun h => absurd h h1, fun _ => displacementAlone_of_decodeField hv hoff⟩

/-! ## 16-bit addressing -/

/-- The base of a row of R98 is the sum of its registers, mod 2^16. -/
theorem toNat_value_ofBits (s : State) (rm : BitVec 3) :
    (Base16.value s (Base16.ofBits rm)).toNat = base16Sum s rm % 2 ^ 16 := by
  have hone (i : BitVec 3) : (readReg .w16 i s).toNat % 2 ^ 16 = (readReg .w16 i s).toNat :=
    Nat.mod_eq_of_lt (readReg .w16 i s).isLt
  have hrow : rm = 0 ∨ rm = 1 ∨ rm = 2 ∨ rm = 3 ∨ rm = 4 ∨ rm = 5 ∨ rm = 6 ∨ rm = 7 := by
    decide +revert
  rcases hrow with rfl | rfl | rfl | rfl | rfl | rfl | rfl | rfl
  -- rows 0 to 3 have two registers, rows 4 to 7 have one
  iterate 4 exact BitVec.toNat_add _ _
  all_goals exact (hone _).symm

theorem seg_ofBits (rm : BitVec 3) : Base16.seg (Base16.ofBits rm) = base16Seg rm := by
  decide +revert

theorem toNat_offset_based16 (s : State) (rm : BitVec 3) (d : Disp 16) :
    ((Mem16.offset s (.based (Base16.ofBits rm) d)).setWidth 32).toNat =
      (base16Sum s rm + (Disp.value d).toNat) % 2 ^ 16 := by
  rw [BitVec.toNat_setWidth_of_le (by omega), Mem16.offset, BitVec.toNat_add, toNat_value_ofBits, Nat.mod_add_mod]

/-- Settles O9: the direct form is its displacement, and every other form adds its displacement to its row's registers. -/
theorem effectiveAddress16 : Obligations.EffectiveAddress16 := by
  intro s p md rm bs rest m _ h
  obtain ⟨-, m, rfl, hm⟩ | ⟨⟨⟩, -⟩ := decodeMem_cases h
  refine ⟨rfl, ?_⟩
  obtain ⟨hdirect, v, rfl, hv⟩ | ⟨hdirect, d, rfl, hd⟩ := decodeMem16_cases hm
  · rw [if_pos hdirect]
    refine ⟨displacementAlone_of_decodeField hv ?_, rfl⟩
    have hlt := v.isLt
    simp only [memRef, Mem16.offset, BitVec.toNat_setWidth, Nat.zero_add]
    omega
  · rw [if_neg hdirect, ← seg_ofBits rm]
    exact ⟨offsetIs_of_decodeDisp hd (toNat_offset_based16 s rm d), rfl⟩

/-! ## 32-bit addressing -/

/-- Settles O10: the direct form is its displacement, and every other form adds its displacement to its base register. -/
theorem effectiveAddress32 : Obligations.EffectiveAddress32 := by
  intro s p md rm bs rest m _ hsib h
  obtain ⟨⟨⟩, -⟩ | ⟨-, m, rfl, hm⟩ := decodeMem_cases h
  refine ⟨rfl, ?_⟩
  obtain ⟨hdirect, v, rfl, hv⟩ | ⟨hdirect, d, rfl, hd⟩ := decodeMem32_cases hsib hm
  · rw [if_pos hdirect]
    refine ⟨displacementAlone_of_decodeField hv ?_, rfl⟩
    rw [Nat.zero_add, Nat.mod_eq_of_lt v.isLt]
    rfl
  · have hseg : baseSeg rm = if rm = 5 then .ss else .ds := by
      simp only [baseSeg, hsib, false_or]
    rw [if_neg hdirect, ← hseg]
    exact ⟨offsetIs_of_decodeDisp hd (BitVec.toNat_add _ _), rfl⟩

/-- The index part of a SIB byte, mod 2^32 (R100). -/
theorem toNat_index_value {s : State} {sib : Byte} {x : Index}
    (h : Index.ofBits (sib.extractLsb' 3 3) (sib.extractLsb' 6 2) = .ok x) :
    (Index.value s x).toNat = sibIndex s sib % 2 ^ 32 := by
  unfold Index.ofBits at h
  unfold sibIndex
  split at h
  · next hnone =>
    split at h <;> cases h
    simp [hnone, Index.value]
  · next hsome =>
    cases h
    rw [if_neg hsome, Index.value, BitVec.toNat_shiftLeft, Nat.shiftLeft_eq]

/-- A scale without an index is refused, whatever follows (R100). -/
theorem decodeSib_of_scaledNoIndex {sib : Byte} (hindex : sib.extractLsb' 3 3 = 4) (hscale : sib.extractLsb' 6 2 ≠ 0)
    (md : BitVec 2) (bs : List Byte) : decodeSib md (sib :: bs) = .error .scaledNoIndex := by
  have hx : Index.ofBits (sib.extractLsb' 3 3) (sib.extractLsb' 6 2) = .error .scaledNoIndex := by
    rw [Index.ofBits, if_pos hindex, if_neg hscale]
  rw [decodeSib, hx]

/-- Settles O11: the index part is refused or has its value, and the base part is a displacement or a register. -/
theorem effectiveAddressSib : Obligations.EffectiveAddressSib := by
  intro s p md sib bs _
  constructor
  · rintro ⟨hindex, hscale⟩
    simp only [decodeMem, decodeMem32_sib, decodeSib_of_scaledNoIndex hindex hscale]
  · intro rest m h
    obtain ⟨⟨⟩, -⟩ | ⟨-, m, rfl, hm⟩ := decodeMem_cases h
    refine ⟨rfl, ?_⟩
    rw [decodeMem32_sib] at hm
    obtain ⟨x, hx, ⟨hbase, v, rfl, hv⟩ | ⟨hbase, d, rfl, hd⟩⟩ := decodeSib_cases hm
    · rw [if_pos hbase]
      refine ⟨displacementAlone_of_decodeField hv ?_, rfl⟩
      rw [memRef, Mem32.offset, BitVec.toNat_add, toNat_index_value hx, Nat.mod_add_mod]
    · rw [if_neg hbase]
      refine ⟨offsetIs_of_decodeDisp hd ?_, rfl⟩
      rw [memRef, Mem32.offset, BitVec.toNat_add, BitVec.toNat_add, toNat_index_value hx, Nat.add_mod_mod,
        Nat.mod_add_mod]

end Sys2Proof.Machine

/-! PROOFS. SAHF (`40_sahf.md` rules R130 to R132), by what an instruction does that writes flags only. -/

namespace Sys2Proof.Machine

open Sys2Proof

/-- Writing the flags and moving past the instruction leaves registers, memory and draws alone (R27, R256). -/
theorem withFlags_retire_frame (i : Instr) (s : State) (f : Flags) :
    SameRegs s ((s.withFlags f).retire (instrLength i)) ∧ SameMemory s ((s.withFlags f).retire (instrLength i)) ∧
    ((s.withFlags f).retire (instrLength i)).draws = s.draws ∧
    Completes i s ((s.withFlags f).retire (instrLength i)) :=
  ⟨fun k => by rw [x_retire, x_withFlags], fun a => by rw [retire_mem, withFlags_mem],
    by rw [retire_draws, withFlags_draws],
    completes_retire i s (s.withFlags f) (sameConstants_withFlags s f) (withFlags_pc s f)⟩

/-- AH is bits 8 to 15 of `x[0]` (R22). -/
theorem getLsbD_readReg_AH (s : State) {j : Nat} (hj : j < 8) :
    (readReg .w8 4 s).getLsbD j = (s.x 0).getLsbD (8 + j) := by
  have hview : viewReg .w8 4 = 0 := rfl
  have hlow : viewLow .w8 4 = 8 := rfl
  simp only [getLsbD_readReg, hview, hlow, Width.bits, hj, decide_true, Bool.true_and]

/-- The flags of SAHF, read off `x[0]` (R130). -/
theorem flagsOfAH_readReg (s : State) (f : Flags) :
    flagsOfAH (readReg .w8 4 s) f =
      { f with
        SF := (s.x 0).getLsbD 15, ZF := (s.x 0).getLsbD 14, AF := (s.x 0).getLsbD 12, PF := (s.x 0).getLsbD 10,
        CF := (s.x 0).getLsbD 8 } := by
  have hAH (j : Nat) (hj : j < 8) := getLsbD_readReg_AH s hj
  rw [flagsOfAH, hAH 7 (by decide), hAH 6 (by decide), hAH 4 (by decide), hAH 2 (by decide), hAH 0 (by decide)]

/-- SAHF completes with the flags of AH in every mode (R130, R131). -/
theorem exec_sahf (p : Prefixes) (s : State) :
    exec (.sahf p) s = .next ((s.withFlags (flagsOfAH (readReg .w8 4 s) s.flags)).retire (instrLength (.sahf p))) := rfl

/-- Settles O39: SAHF writes the flags of AH and completes, and such a write leaves the rest alone. -/
theorem sahfLoadsFlags : Obligations.SahfLoadsFlags := by
  intro p s
  refine ⟨_, exec_sahf p s, ?_, rfl, withFlags_retire_frame (.sahf p) s _⟩
  rw [retire_flags, withFlags_flags, flagsOfAH_readReg]

end Sys2Proof.Machine

/-! PROOFS. SAL, SHL, SAR and SHR (`41_shift_sal_sar_shl_shr.md` rules R141 to R152), by what a read-modify-write does that sets flags only. -/

namespace Sys2Proof.Machine

open Sys2Proof

/-! ## The loop in closed form (R143, R144) -/

section

variable {n : Nat} (a : BitVec n) (c : Nat)

theorem shiftResultRule_sal : shiftResultRule .sal a c = a <<< c := by
  rw [shiftResultRule, ← BitVec.toNat_inj, BitVec.toNat_ofNat, BitVec.toNat_shiftLeft, Nat.shiftLeft_eq]

theorem shiftResultRule_shr : shiftResultRule .shr a c = a >>> c := by
  have hlt : a.toNat / 2 ^ c < 2 ^ n := (Nat.div_le_self _ _).trans_lt a.isLt
  rw [shiftResultRule, ← BitVec.toNat_inj, BitVec.toNat_ofNat, BitVec.toNat_ushiftRight, Nat.shiftRight_eq_div_pow,
    Nat.mod_eq_of_lt hlt]

theorem shiftResultRule_sar : shiftResultRule .sar a c = a.sshiftRight c := by
  rw [shiftResultRule, BitVec.sshiftRight, Int.shiftRight_eq_div_pow]
  norm_cast

theorem shiftResultRule_zero (op : ShiftOp) : shiftResultRule op a 0 = a := by
  cases op with
  | sal => rw [shiftResultRule_sal, BitVec.shiftLeft_zero]
  | sar => rw [shiftResultRule_sar, BitVec.sshiftRight_zero]
  | shr => rw [shiftResultRule_shr, BitVec.ushiftRight_zero]

/-- The high-order bit that the next step shifts out on the left (R150). -/
theorem msb_shiftLeft_eq_carryRule : (a <<< c).msb = shiftCarryRule .sal a (c + 1) := by
  rw [BitVec.msb_shiftLeft, BitVec.getMsbD, shiftCarryRule]
  by_cases h : c < n
  · simp [h, show n - 1 - c = n - (c + 1) by omega, show c + 1 ≤ n from h]
  · simp [h, show ¬ c + 1 ≤ n from h]

/-- The low-order bit that the next step shifts out on the right; zeros have come in from the left (R152). -/
theorem getLsbD_ushiftRight_eq_carryRule : (a >>> c).getLsbD 0 = shiftCarryRule .shr a (c + 1) := by
  rw [BitVec.getLsbD_ushiftRight, shiftCarryRule]
  split
  · rw [Nat.add_zero, Nat.add_sub_cancel]
  · exact BitVec.getLsbD_of_ge _ _ (by omega)

/-- The low-order bit that the next step shifts out on the right; copies of the high-order bit have come in from the left (R151). -/
theorem getLsbD_sshiftRight_eq_carryRule : (a.sshiftRight c).getLsbD 0 = shiftCarryRule .sar a (c + 1) := by
  rw [BitVec.getLsbD_sshiftRight, shiftCarryRule, Nat.add_zero, Nat.add_sub_cancel]
  rcases Nat.eq_zero_or_pos n with rfl | hn
  · simp
  · rw [BitVec.msb_eq_getLsbD_last]
    simp [hn.not_ge]

/-- One more step takes the closed form for `c` to the one for `c + 1`, and shifts out the bit that its carry names. -/
theorem shiftStep_shiftResultRule (op : ShiftOp) :
    shiftStep op (shiftResultRule op a c) = (shiftResultRule op a (c + 1), shiftCarryRule op a (c + 1)) := by
  cases op with
  | sal => simp only [shiftStep, shiftResultRule_sal, ← BitVec.shiftLeft_add, msb_shiftLeft_eq_carryRule]
  | sar => simp only [shiftStep, shiftResultRule_sar, ← BitVec.sshiftRight_add, getLsbD_sshiftRight_eq_carryRule]
  | shr => simp only [shiftStep, shiftResultRule_shr, ← BitVec.shiftRight_add, getLsbD_ushiftRight_eq_carryRule]

/-- The loop unrolled at its end: its last step is made on the value that the steps before it leave. -/
theorem shiftLoop_succ (op : ShiftOp) (cf : Bool) :
    shiftLoop op (c + 1) a cf = shiftStep op (shiftLoop op c a cf).1 := by
  induction c generalizing a cf with
  | zero => rfl
  | succ c ih => exact ih (shiftStep op a).1 (shiftStep op a).2

theorem shiftLoop_fst (op : ShiftOp) (cf : Bool) : (shiftLoop op c a cf).1 = shiftResultRule op a c := by
  induction c with
  | zero => exact (shiftResultRule_zero a op).symm
  | succ c ih => rw [shiftLoop_succ, ih, shiftStep_shiftResultRule]

/-- OF of a single shift, from the operand alone (R150, R151, R152). -/
theorem singleShiftOF_eq_overflowRule (op : ShiftOp) (hn : 2 ≤ n) :
    singleShiftOF op a (shiftResultRule op a 1) (shiftCarryRule op a 1) = shiftOverflowRule op a := by
  cases op with
  | sal =>
    have hcarry : shiftCarryRule .sal a 1 = a.getLsbD (n - 1) := if_pos (by omega)
    have hmsb : (shiftResultRule .sal a 1).msb = a.getLsbD (n - 2) := by
      rw [shiftResultRule_sal, msb_shiftLeft_eq_carryRule]
      exact if_pos hn
    rw [singleShiftOF, shiftOverflowRule, hcarry, hmsb, Bool.xor_comm]
  | sar => rfl
  | shr => exact BitVec.msb_eq_getLsbD_last a

end

/-- Settles O15: the last step of the loop is made on the closed form for one count less. -/
theorem shiftLoopClosedForm : Obligations.ShiftLoopClosedForm := by
  intro op w a c cf hc
  obtain ⟨k, rfl⟩ : ∃ k, c = k + 1 := ⟨c - 1, by omega⟩
  rw [shiftLoop_succ, shiftLoop_fst, shiftStep_shiftResultRule]

/-! ## A read-modify-write that sets flags only (R68) -/

section

variable {w : Width} {pl : Place} {v : BitVec w.bits} {s u t : State}

theorem FlagsOnly.sameRegs (h : FlagsOnly s u) : SameRegs s u := fun k => by simp only [State.x, h.regs]

theorem FlagsOnly.sameMemory (h : FlagsOnly s u) : SameMemory s u := fun a => by rw [h.mem]

theorem FlagsOnly.storable (h : FlagsOnly s u) : storable u pl = storable s pl := by
  cases pl with
  | reg i => rfl
  | mem p => simp only [Machine.storable, hitsProgram_congr h.constants]

/-- A place holds a value with respect to the state before the flags were set, too. -/
theorem FlagsOnly.holds (h : FlagsOnly s u) (k : Holds w pl v u t) : Holds w pl v s t := by
  cases pl with
  | reg i =>
    obtain ⟨hview, hmem⟩ := k
    exact ⟨hview.congr (fun k => (h.sameRegs k).symm) fun _ => rfl, fun a => (hmem a).trans (h.sameMemory a)⟩
  | mem p =>
    obtain ⟨hregs, hother, hbytes⟩ := k
    exact ⟨fun k => (hregs k).trans (h.sameRegs k), fun a ha => (hother a ha).trans (h.sameMemory a), hbytes⟩

theorem Holds.retire (h : Holds w pl v s t) (L : Nat) : Holds w pl v s (t.retire L) := by
  cases pl with
  | reg i => exact h
  | mem p => exact h

end

section

variable {w : Width} {p : Prefixes} {rm : RM} {f : BitVec w.bits → State → Option (BitVec w.bits) × State}
  {s : State} {pl : Place}

/-- Where it gives no new value, the instruction completes with the flags set and the operand as it was. -/
theorem updateRM_keeps (i : Instr) (hpl : operandPlace p rm w.bytes .readwrite s = .ok pl)
    (hf : FlagsOnly s (f (readPlace w pl s) s).2) (hnone : (f (readPlace w pl s) s).1 = none) :
    ∃ t, updateRM w (instrLength i) p rm f s = .next t ∧ SameRegs s t ∧ SameMemory s t ∧
      t.flags = (f (readPlace w pl s) s).2.flags ∧ t.draws = (f (readPlace w pl s) s).2.draws ∧ Completes i s t := by
  refine ⟨(f (readPlace w pl s) s).2.retire (instrLength i), ?_, hf.sameRegs, hf.sameMemory, rfl, rfl,
    completes_retire i s _ hf.constants hf.pc⟩
  rcases updateRM_cases w (instrLength i) p rm f s with ⟨e, he, _⟩ | ⟨pl', hpl', _, h⟩ | ⟨pl', v, hpl', hv, _⟩
  · cases hpl.symm.trans he
  · cases hpl.symm.trans hpl'
    exact h
  · cases hpl.symm.trans hpl'
    cases hnone.symm.trans hv

/-- Where it gives a new value and the place is storable, the instruction completes with the flags set and the value there. -/
theorem updateRM_writes (i : Instr) {v : BitVec w.bits} (hpl : operandPlace p rm w.bytes .readwrite s = .ok pl)
    (hwf : s.mem.wf = true) (hst : storable s pl = true) (hf : FlagsOnly s (f (readPlace w pl s) s).2)
    (hsome : (f (readPlace w pl s) s).1 = some v) :
    ∃ t, updateRM w (instrLength i) p rm f s = .next t ∧ Holds w pl v s t ∧
      t.flags = (f (readPlace w pl s) s).2.flags ∧ t.draws = (f (readPlace w pl s) s).2.draws ∧ Completes i s t := by
  obtain ⟨u, hu, hholds, hsame⟩ := writePlace_storable w pl v (f (readPlace w pl s) s).2
    (operandPlace_length hpl) (by rw [hf.mem, hwf]) (by rw [hf.storable, hst])
  refine ⟨u.retire (instrLength i), ?_, (hf.holds hholds).retire _, hsame.flags, hsame.draws,
    completes_retire i s u (hf.constants.trans hsame.constants) (hsame.pc.trans hf.pc)⟩
  rcases updateRM_cases w (instrLength i) p rm f s with ⟨e, he, _⟩ | ⟨pl', hpl', hnone, _⟩ | ⟨pl', v', hpl', hv, h⟩
  · cases hpl.symm.trans he
  · cases hpl.symm.trans hpl'
    cases hsome.symm.trans hnone
  · cases hpl.symm.trans hpl'
    cases hsome.symm.trans hv
    rw [h, hu, commit_ok]

end

/-! ## The rows -/

/-- Settles O44: with a count of 0 the read-modify-write gives no new value and draws OF only. -/
theorem shiftByZeroKeepsOperand : Obligations.ShiftByZeroKeepsOperand := by
  intro i q s pl hq hpl hc
  rw [exec_of_shiftRow hq, shiftRM]
  obtain ⟨t, hexec, hregs, hmem, hflags, _, hcompletes⟩ :=
    updateRM_keeps (f := fun a s => shiftOperand q.op (shiftCount q.count s) a s) i hpl
      (shiftOperand_flagsOnly _ _ _ s) (by rw [hc]; rfl)
  refine ⟨t, hexec, hregs, hmem, ?_, hcompletes⟩
  rw [hflags, hc, shiftOperand_zero]
  rfl

/-- The value and the flags of a shift by a count from 1 on, by the rules (R143 to R148). -/
theorem shiftOperand_meets_rules (op : ShiftOp) {w : Width} {c : Nat} (a : BitVec w.bits) (s : State) (hc : c ≠ 0) :
    (shiftOperand op c a s).1 = some (shiftResultRule op a c) ∧
    ResultFlagsRule (shiftResultRule op a c) s.flags (shiftOperand op c a s).2.flags ∧
    (shiftOperand op c a s).2.flags.CF = shiftCarryRule op a c ∧
    (c = 1 → (shiftOperand op c a s).2.flags.OF = shiftOverflowRule op a) := by
  obtain ⟨hvalue, af, o, hflags, hof⟩ := shiftOperand_pos op c a s hc
  rw [shiftLoopClosedForm op w a c s.flags.CF (Nat.one_le_iff_ne_zero.2 hc)] at hvalue hflags hof
  rw [hflags]
  refine ⟨hvalue, resultFlagsRule_ofResult _ _ _ _ _, rfl, ?_⟩
  rintro rfl
  exact (hof rfl).trans (singleShiftOF_eq_overflowRule a op (by cases w <;> decide))

/-- Settles O45: with a count from 1 on the read-modify-write gives the value of the closed form, and flags by the rules. -/
theorem shiftCompletes : Obligations.ShiftCompletes := by
  intro i q s pl hq hwf hpl hst hc a c
  obtain ⟨hvalue, hresult, hcarry, hoverflow⟩ := shiftOperand_meets_rules q.op a s hc
  rw [exec_of_shiftRow hq, shiftRM]
  obtain ⟨t, hexec, hholds, hflags, _, hcompletes⟩ :=
    updateRM_writes (f := fun a s => shiftOperand q.op (shiftCount q.count s) a s) i hpl hwf hst
      (shiftOperand_flagsOnly _ _ _ s) hvalue
  rw [← hflags] at hresult hcarry hoverflow
  exact ⟨t, hexec, hholds, hresult, hcarry, hoverflow, hcompletes⟩

end Sys2Proof.Machine

/-! PROOFS. SUB and SBB (`42_sbb.md` rules R160 and R161, and the rules R270 and R271 of SUB), by what a read-modify-write does that sets flags only. -/

namespace Sys2Proof.Machine

open Sys2Proof

/-- Where SRC can be read, a row is the read-modify-write of its DEST (R160, R270). -/
theorem SubRow.run_of_source {q : SubRow} {s : State} {b : BitVec q.w.bits} (h : q.source s = .ok b) (L : Nat) :
    q.run L s = subFromRM q.op q.w L q.pre q.dest b s := by
  rw [SubRow.run, h]

/-- A subtraction from an accessible and storable DEST completes with the difference there and its six flags; it draws nothing (R34). -/
theorem subFromRM_completes (i : Instr) (op : SubOp) {w : Width} {p : Prefixes} {rm : RM} (b : BitVec w.bits)
    {s : State} {pl : Place} (hpl : operandPlace p rm w.bytes .readwrite s = .ok pl) (hwf : s.mem.wf = true)
    (hst : storable s pl = true) :
    ∃ t, subFromRM op w (instrLength i) p rm b s = .next t ∧
      Holds w pl (subResult (readPlace w pl s) b (borrowIn op s)) s t ∧
      t.flags = subFlags (readPlace w pl s) b (borrowIn op s) s.flags ∧ t.draws = s.draws ∧ Completes i s t :=
  updateRM_writes i hpl hwf hst (withSubFlags_flagsOnly (readPlace w pl s) b (borrowIn op s) s) rfl

/-- Settles O43: every row comes to one read-modify-write of DEST, whose value and flags are those of `Sub_n`. -/
theorem subtractionCompletes : Obligations.SubtractionCompletes := by
  intro i q s pl b hq hwf hpl hsrc hst a c r
  have hborrow : c = borrowIn q.op s := rfl
  have hresult : r = subResult a b (borrowIn q.op s) := rfl
  obtain ⟨t, hexec, hholds, hflags, hdraws, hcompletes⟩ := subFromRM_completes i q.op b hpl hwf hst
  rw [hresult, hborrow, exec_of_subRow hq, SubRow.run_of_source hsrc]
  exact ⟨t, hexec, hholds, hflags ▸ subFlagsRule_subFlags a b _ s.flags, hdraws, hcompletes⟩

end Sys2Proof.Machine

/-! PROOFS. SCAS (`43_scas.md` rules R170 and R171), by what moving the string index does after flags were set. -/

namespace Sys2Proof.Machine

open Sys2Proof

/-! ## The string operand and the string index (R37, R170, R171) -/

/-- DI is the low half of EDI as a number (R21). -/
theorem toNat_readReg_w16 (i : BitVec 3) (s : State) : (readReg .w16 i s).toNat = (s.x i).toNat % 2 ^ 16 := by
  have hview : viewReg .w16 i = i := rfl
  have hlow : viewLow .w16 i = 0 := rfl
  rw [readReg, hview, hlow, BitVec.extractLsb'_toNat, Nat.shiftRight_zero]

/-- A string operand stands in ES; no prefix enters the place but by the address size (R171). -/
theorem stringOperandAt_stringRef (z : Size) (s : State) : StringOperandAt z s (stringRef z s) := by
  cases z with
  | s16 =>
    refine ⟨rfl, rfl, ?_⟩
    have hoff : (stringRef .s16 s).off = (readReg .w16 7 s).setWidth 32 := rfl
    have hfits : (readReg .w16 7 s).toNat < 2 ^ 32 := (readReg .w16 7 s).isLt.trans (by decide)
    rw [hoff, BitVec.toNat_setWidth, Nat.mod_eq_of_lt hfits, toNat_readReg_w16]
  | s32 => exact ⟨rfl, rfl, rfl⟩

/-- A step down or up by `k` is one addition of a signed step, modulo 2^n (R37). -/
theorem sub_or_add_eq_ofInt {n : Nat} (x : BitVec n) (k : Nat) (down : Bool) :
    (if down then x - BitVec.ofNat n k else x + BitVec.ofNat n k) =
      BitVec.ofInt n ((x.toNat : Int) + if down then -(k : Int) else k) := by
  cases down with
  | false => simp [BitVec.ofInt_add]
  | true => simp [BitVec.ofInt_add, BitVec.ofInt_neg, BitVec.sub_eq_add_neg]

theorem indexStepped_stepIndex (z : Size) (k : Nat) (s : State) : IndexStepped z k s (stepIndex z k s) := by
  cases z with
  | s16 =>
    rw [IndexStepped, ← sub_or_add_eq_ofInt]
    exact writeReg_spec .w16 7 _ s
  | s32 =>
    rw [IndexStepped, ← sub_or_add_eq_ofInt]
    exact writeReg_spec .w32 7 _ s

/-- The step of the index is read off the registers and DF only. -/
theorem IndexStepped.congr {z : Size} {k : Nat} {s u t t' : State} (h : IndexStepped z k u t) (hs : SameRegs s u)
    (hDF : u.flags.DF = s.flags.DF) (ht : SameRegs t t') : IndexStepped z k s t' := by
  cases z with
  | s16 =>
    have hDI : readReg .w16 7 u = readReg .w16 7 s := by rw [readReg, hs, ← readReg]
    rw [IndexStepped, hDI, hDF] at h
    exact h.congr (fun k => (hs k).symm) ht
  | s32 =>
    rw [IndexStepped, hs, hDF] at h
    exact h.congr (fun k => (hs k).symm) ht

/-- Where only flags were set before, moving the index and the end of the instruction leave memory, those flags and the draws alone (R27, R170). -/
theorem FlagsOnly.stepIndex_retire {s u : State} (h : FlagsOnly s u) (i : Instr) (z : Size) (k : Nat) :
    ((stepIndex z k u).retire (instrLength i)).flags = u.flags ∧
    IndexStepped z k s ((stepIndex z k u).retire (instrLength i)) ∧
    SameMemory s ((stepIndex z k u).retire (instrLength i)) ∧
    ((stepIndex z k u).retire (instrLength i)).draws = u.draws ∧
    Completes i s ((stepIndex z k u).retire (instrLength i)) := by
  have hstep := sameOtherwise_stepIndex z k u
  refine ⟨hstep.flags, (indexStepped_stepIndex z k u).congr h.sameRegs h.DF (x_retire _ _), fun a => ?_, hstep.draws,
    completes_retire i s _ (h.constants.trans hstep.constants) (hstep.pc.trans h.pc)⟩
  rw [retire_mem, mem_stepIndex, h.sameMemory]

/-! ## SCAS -/

/-- With its operand readable, SCAS sets the flags of accumulator minus memory and moves the index (R170). -/
theorem scanString_of_access {w : Width} {p : Prefixes} {s : State} {a : List Dword}
    (h : access s (stringRef (p.addressSize s.defaultSize) s) w.bytes .read = .ok a) (L : Nat) :
    scanString w L p s = .next ((stepIndex (p.addressSize s.defaultSize) w.bytes
      (withSubFlags (readReg w 0 s) (ofBytes w.bits (s.mem.load a)) false s)).retire L) := by
  rcases scanString_cases w L p s with ⟨e, he, _⟩ | ⟨a', ha', hscan⟩
  · cases h.symm.trans he
  · cases h.symm.trans ha'
    exact hscan

/-- Settles O54: every row sets the flags of a subtraction without borrow and then moves the index. -/
theorem scasCompletes : Obligations.ScasCompletes := by
  intro i q s p hq hacc a b
  obtain ⟨hflags, hindex, hmem, hdraws, hcompletes⟩ :=
    (withSubFlags_flagsOnly a b false s).stepIndex_retire i (q.pre.addressSize s.defaultSize) q.w.bytes
  have hresult : BitVec.ofInt q.w.bits ((a.toNat : Int) - b.toNat) = subResult a b false := by
    rw [subResult, exactDiff, Bool.toNat_false, Nat.cast_zero, Int.sub_zero]
  rw [exec_of_scasRow hq, scanString_of_access hacc, hresult]
  refine ⟨stringOperandAt_stringRef _ s, _, rfl, ?_, hindex, hmem, hdraws, hcompletes⟩
  rw [hflags, withSubFlags_flags]
  exact subFlagsRule_subFlags a b false s.flags

end Sys2Proof.Machine

/-! PROOFS. SETcc (`44_setcc.md` rules R180 and R181), by what a write of the `r/m` operand does. -/

namespace Sys2Proof.Machine

open Sys2Proof

/-! ## The conditions and their codes (R181) -/

/-- The conditions are declared in the order of their codes. -/
theorem Cond.toNat_code (c : Cond) : (Cond.code c).toNat = c.ctorIdx := by
  cases c <;> rfl

theorem Cond.code_injective : Function.Injective Cond.code := by
  intro c d h
  rw [← Cond.ofNat_ctorIdx c, ← Cond.ofNat_ctorIdx d, ← Cond.toNat_code, ← Cond.toNat_code, h]

/-- The other condition of the pair that shares the upper three bits of the code. -/
def Cond.opposite : Cond → Cond
  | .o => .no
  | .no => .o
  | .b => .ae
  | .ae => .b
  | .e => .ne
  | .ne => .e
  | .be => .a
  | .a => .be
  | .s => .ns
  | .ns => .s
  | .p => .np
  | .np => .p
  | .l => .ge
  | .ge => .l
  | .le => .g
  | .g => .le

/-- The codes of a pair differ in bit 0 only. -/
theorem Cond.code_opposite (c : Cond) : Cond.code (Cond.opposite c) = Cond.code c ^^^ 1 := by
  cases c <;> rfl

theorem xor_one_of_even {b : Byte} (h : b.getLsbD 0 = false) : b ^^^ 1 = b + 1 := by
  decide +revert

/-- The conditions of a pair are the negations of each other, by De Morgan where a condition reads two or three flags. -/
theorem Cond.holds_opposite (f : Flags) (c : Cond) : Cond.holds f (Cond.opposite c) = !Cond.holds f c := by
  cases c <;> simp [Cond.opposite, Cond.holds, bne]

/-- The second opcode byte of a row is 90 plus the code of its condition. -/
theorem encodeBody_of_setRow {i : Instr} {q : SetRow} (h : setRow i = some q) :
    encodeBody i = [0x0F, 0x90 + Cond.code q.cond] ++ encodeRM 0 q.rm := by
  unfold setRow at h
  split at h <;> cases h <;> rfl

/-- Settles O49: the condition after an even one is its opposite, since no two conditions share a code. -/
theorem conditionTable : Obligations.ConditionTable := by
  refine ⟨fun f => ?_, fun f c d heven hnext => ?_, fun i q => encodeBody_of_setRow⟩
  · refine ⟨rfl, rfl, rfl, rfl, rfl, rfl, ?_, ?_, rfl, rfl, rfl, rfl, ?_, ?_, ?_, ?_⟩ <;> simp [Cond.holds]
  · obtain rfl : Cond.opposite c = d := Cond.code_injective (by rw [Cond.code_opposite, xor_one_of_even heven, hnext])
    exact Cond.holds_opposite f c

/-! ## A write of the `r/m` operand (R67) -/

/-- A write to an accessible and storable operand completes with the value there and the flags as they were; it draws nothing. -/
theorem writeRM_completes (i : Instr) {w : Width} {p : Prefixes} {rm : RM} (v : BitVec w.bits) {s : State}
    {pl : Place} (hpl : operandPlace p rm w.bytes .write s = .ok pl) (hwf : s.mem.wf = true)
    (hst : storable s pl = true) :
    ∃ t, writeRM w (instrLength i) p rm v s = .next t ∧ Holds w pl v s t ∧ t.flags = s.flags ∧ t.draws = s.draws ∧
      Completes i s t := by
  obtain ⟨u, hu, hholds, hsame⟩ := writePlace_storable w pl v s (operandPlace_length hpl) hwf hst
  refine ⟨u.retire (instrLength i), ?_, hholds.retire _, hsame.flags, hsame.draws,
    completes_retire i s u hsame.constants hsame.pc⟩
  rcases writeRM_cases w (instrLength i) p rm v s with ⟨e, he, _⟩ | ⟨pl', hpl', hwrite⟩
  · cases hpl.symm.trans he
  · cases hpl.symm.trans hpl'
    rw [hwrite, hu, commit_ok]

/-- Settles O50: every row is one write of the byte that its condition gives. -/
theorem setccCompletes : Obligations.SetccCompletes := by
  intro i q s pl hq hwf hpl hst
  rw [exec_of_setRow hq]
  exact writeRM_completes i (w := .w8) _ hpl hwf hst

end Sys2Proof.Machine

/-! PROOFS. SGDT and SIDT (`45_sgdt_sidt.md` rules R210 to R212), by what a store of bytes does to a state that differs in flags and draws only. -/

namespace Sys2Proof.Machine

open Sys2Proof

/-! ## A store of bytes (R67) -/

theorem toBytes_eq_map (m : Nat) {n : Nat} (v : BitVec n) :
    toBytes m v = (List.range m).map fun k => v.extractLsb' (8 * k) 8 :=
  List.ext_getElem (by simp) fun k hk _ => by
    rw [getElem_toBytes m v k (length_toBytes m v ▸ hk), List.getElem_map, List.getElem_range]

theorem bytesStored_store {p : List Dword} {b : Nat → Byte} {s : State} (hwf : s.mem.wf = true) :
    BytesStored p b s (s.withMem (s.mem.store p ((List.range p.length).map b))) := by
  refine ⟨Memory.read_store_other p _ s.mem hwf, fun k hk hlast => ?_⟩
  rw [withMem_mem, Memory.read_store_at p _ s.mem hwf (by simp) k hk hlast, List.getElem_map, List.getElem_range]

/-- The bytes are stored with respect to the state before the flags were set, too. -/
theorem FlagsOnly.bytesStored {p : List Dword} {b : Nat → Byte} {s u t : State} (h : FlagsOnly s u)
    (k : BytesStored p b u t) : BytesStored p b s t := by
  obtain ⟨hother, hbytes⟩ := k
  exact ⟨fun a ha => (hother a ha).trans (h.sameMemory a), hbytes⟩

/-- A store clear of `PROGRAM` completes with the bytes in memory and the flags as they were handed to it; it draws nothing. -/
theorem storeBytes_completes (i : Instr) {p : List Dword} {b : Nat → Byte} {bs : List Byte}
    (hbs : bs = (List.range p.length).map b) {s u : State} (h : FlagsOnly s u) (hwf : s.mem.wf = true)
    (hclear : hitsProgram s p = false) :
    ∃ t, commit (instrLength i) (storeBytes p bs u) = .next t ∧ SameRegs s t ∧ BytesStored p b s t ∧
      t.flags = u.flags ∧ t.draws = u.draws ∧ Completes i s t := by
  have hclear' : ¬ hitsProgram u p = true := by simp [hitsProgram_congr h.constants, hclear]
  have hstored : BytesStored p b u (u.withMem (u.mem.store p bs)) := hbs ▸ bytesStored_store (h.mem ▸ hwf)
  have hsame := sameOtherwise_withMem u (u.mem.store p bs)
  refine ⟨(u.withMem (u.mem.store p bs)).retire (instrLength i), ?_, h.sameRegs, h.bytesStored hstored, hsame.flags,
    hsame.draws, completes_retire i s _ (h.constants.trans hsame.constants) (hsame.pc.trans h.pc)⟩
  rw [storeBytes_eq, if_neg hclear', commit_ok]

/-! ## SGDT and SIDT -/

/-- The six bytes of the image are those of the table of R212. -/
theorem tableImage_eq_map (d : DescTable) (z : Size) (spare : Byte) :
    tableImage d z spare = (List.range 6).map (imageByte d z spare) := by
  unfold tableImage
  rw [toBytes_eq_map, toBytes_eq_map]
  cases z with
  | s16 => rfl
  | s32 => rfl

/-- The draw of byte 5 is no change of the flags (R212). -/
theorem afterImage_flags (z : Size) (s : State) : (afterImage z s).flags = s.flags := by
  cases z with
  | s16 => rfl
  | s32 => rfl

/-- With its operand writable, SGDT or SIDT stores the image at every privilege level and in every mode (R210, R211). -/
theorem storeTable_of_access {d : DescTable} {p : Prefixes} {m : MemOperand} {s : State} {a : List Dword}
    (h : access s (memRef p m s) 6 .write = .ok a) (L : Nat) :
    storeTable d L p (.mem m) s = commit L (storeBytes a (tableImage d (p.operandSize s.defaultSize) (s.nextBits 8))
      (afterImage (p.operandSize s.defaultSize) s)) := by
  rcases storeTable_cases d L p (.mem m) s with ⟨_, ⟨⟩, _⟩ | ⟨_, e, ⟨⟩, he, _⟩ | ⟨_, a', ⟨⟩, ha', hstore⟩
  · cases h.symm.trans he
  · cases h.symm.trans ha'
    exact hstore

/-- Settles O51: both rows are one store of the image, whose byte 5 is the drawn one with a 16-bit operand size. -/
theorem descriptorTableStoreCompletes : Obligations.DescriptorTableStoreCompletes := by
  intro i q m s p hq hrm hwf hacc hclear
  have hlen : p.length = 6 := access_ok_length hacc
  have himage := tableImage_eq_map q.table (q.pre.operandSize s.defaultSize) (s.nextBits 8)
  rw [← hlen] at himage
  obtain ⟨t, hexec, hregs, hstored, hflags, _, hcompletes⟩ :=
    storeBytes_completes i himage (flagsOnly_afterImage (q.pre.operandSize s.defaultSize) s) hwf hclear
  refine ⟨t, s.nextBits 8, ?_, hregs, hstored, hlen, hflags.trans (afterImage_flags _ s), hcompletes⟩
  rw [exec_of_tableRow hq, hrm, storeTable_of_access hacc, hexec]

end Sys2Proof.Machine

/-! PROOFS. SHLD and SHRD (`46_shld_shrd.md` rules R220 to R230), by the two operands side by side and by what a read-modify-write does that sets flags only. -/

namespace Sys2Proof.Machine

open Sys2Proof

/-! ## The value of a double shift in closed form (R226) -/

section

variable {n k : Nat} (a b : BitVec n)

/-- A right shift by `k` with the operands exchanged is a left shift by the rest of the width: both read the same `n` bits of `b ++ a`. -/
theorem doubleShift_shrd_eq_shld (hk : k ≤ n) : (doubleShift .shrd a b k).1 = (doubleShift .shld b a (n - k)).1 := by
  simp only [doubleShift, Nat.sub_sub_self hk, BitVec.or_comm]

theorem doubleResultRule_shrd_eq_shld (hk : k ≤ n) :
    doubleResultRule .shrd a b k = doubleResultRule .shld b a (n - k) := by
  simp only [doubleResultRule, Nat.sub_sub_self hk, Nat.add_comm]

/-- The bits shifted in fill the places that the shift of `a` has emptied, so the two parts add up. -/
theorem toNat_doubleShift_shld (hk : k ≤ n) : (doubleShift .shld a b k).1.toNat = doubleResultRule .shld a b k := by
  have hpow : 2 ^ n = 2 ^ (n - k) * 2 ^ k := by rw [← Nat.pow_add, Nat.sub_add_cancel hk]
  have hkept : a.toNat * 2 ^ k % 2 ^ n = 2 ^ k * (a.toNat % 2 ^ (n - k)) := by
    rw [hpow, Nat.mul_mod_mul_right, Nat.mul_comm]
  have hin : b.toNat / 2 ^ (n - k) < 2 ^ k := Nat.div_lt_of_lt_mul (hpow ▸ b.isLt)
  rw [doubleShift, doubleResultRule, BitVec.toNat_or, BitVec.toNat_shiftLeft, BitVec.toNat_ushiftRight,
    Nat.shiftLeft_eq, Nat.shiftRight_eq_div_pow, hkept, Nat.two_pow_add_eq_or_of_lt hin]

theorem toNat_doubleShift (op : DoubleOp) (hk : k ≤ n) :
    (doubleShift op a b k).1.toNat = doubleResultRule op a b k := by
  cases op with
  | shld => exact toNat_doubleShift_shld a b hk
  | shrd =>
    rw [doubleShift_shrd_eq_shld a b hk, doubleResultRule_shrd_eq_shld a b hk]
    exact toNat_doubleShift_shld b a (Nat.sub_le n k)

theorem doubleShift_snd (op : DoubleOp) : (doubleShift op a b k).2 = doubleCarryRule op a k := by
  cases op <;> rfl

/-- The `n` bits of `a ++ b` that start `k` below the top. -/
theorem doubleShift_shld_eq_extractLsb' (hk : k ≤ n) :
    (doubleShift .shld a b k).1 = (a ++ b).extractLsb' (n - k) n := by
  refine BitVec.eq_of_getLsbD_eq fun j hj => ?_
  rw [BitVec.getLsbD_extractLsb', BitVec.getLsbD_append, doubleShift, BitVec.getLsbD_or, BitVec.getLsbD_shiftLeft,
    BitVec.getLsbD_ushiftRight]
  by_cases hin : j < k
  · simp [hj, hin, show n - k + j < n by omega]
  · have hb : b.getLsbD (n - k + j) = false := BitVec.getLsbD_of_ge _ _ (by omega)
    simp [hj, hin, hb, show ¬ n - k + j < n by omega, show n - k + j - n = j - k by omega]

end

/-- The upper half of a word shifted left, before the shift. -/
theorem extractLsb'_shiftLeft_upper {n k : Nat} (x : BitVec (n + n)) (hk : k ≤ n) :
    (x <<< k).extractLsb' n n = x.extractLsb' (n - k) n := by
  refine BitVec.eq_of_getLsbD_eq fun j hj => ?_
  rw [BitVec.getLsbD_extractLsb', BitVec.getLsbD_extractLsb', BitVec.getLsbD_shiftLeft]
  simp [hj, show ¬ n + j < k by omega, show n + j - k = n - k + j by omega]

/-- The lower bits of a word shifted right, before the shift. -/
theorem extractLsb'_ushiftRight_lower {m n k : Nat} (x : BitVec m) :
    (x >>> k).extractLsb' 0 n = x.extractLsb' k n :=
  BitVec.eq_of_toNat_eq rfl

/-- Settles O16: both double shifts take `n` bits out of the operands side by side, and those have the value of the rule. -/
theorem doubleShiftClosedForm : Obligations.DoubleShiftClosedForm := by
  intro w a b k _ hk
  refine ⟨fun op => ⟨toNat_doubleShift a b op hk.le, doubleShift_snd a b op⟩, ?_, ?_⟩
  · rw [extractLsb'_shiftLeft_upper _ hk.le, doubleShift_shld_eq_extractLsb' a b hk.le]
  · rw [extractLsb'_ushiftRight_lower, doubleShift_shrd_eq_shld a b hk.le,
      doubleShift_shld_eq_extractLsb' b a (Nat.sub_le _ k), Nat.sub_sub_self hk.le]

/-! ## The rows (R220, R221) -/

/-- The count is taken mod 32 (R221). -/
theorem shiftCount_lt (c : CountSource) (s : State) : shiftCount c s < 32 := by
  cases c with
  | one => exact Nat.one_lt_ofNat
  | cl | imm v => exact Nat.mod_lt _ (by decide)

/-- There is no byte form (R220). -/
theorem width_of_doubleRow {i : Instr} {q : DoubleRow} (h : doubleRow i = some q) : q.w = .w16 ∨ q.w = .w32 := by
  unfold doubleRow at h
  split at h <;> cases h <;> simp

/-- A failed access check is all that a read-modify-write does (R68). -/
theorem updateRM_raises {w : Width} {L : Nat} {p : Prefixes} {rm : RM}
    {f : BitVec w.bits → State → Option (BitVec w.bits) × State} {s : State} {e : Exc}
    (h : operandPlace p rm w.bytes .readwrite s = .error e) : updateRM w L p rm f s = raise e s := by
  rw [updateRM, h]

/-- What a row makes of its operand and the state: `inBits` and the count are read before anything changes (R221). -/
def DoubleRow.effect (q : DoubleRow) (a : BitVec q.w.bits) (s : State) : Option (BitVec q.w.bits) × State :=
  doubleOperand q.op (shiftCount q.count s) (readReg q.w q.reg s) a s

theorem exec_of_doubleRow_eq_updateRM {i : Instr} {q : DoubleRow} (h : doubleRow i = some q) (s : State) :
    exec i s = updateRM q.w (instrLength i) q.pre q.rm q.effect s :=
  exec_of_doubleRow h s

theorem DoubleRow.effect_flagsOnly (q : DoubleRow) (a : BitVec q.w.bits) (s : State) : FlagsOnly s (q.effect a s).2 :=
  doubleOperand_flagsOnly _ _ _ a s

theorem DoubleRow.effect_of_count_zero {q : DoubleRow} {s : State} (h : shiftCount q.count s = 0)
    (a : BitVec q.w.bits) : q.effect a s = (none, s) := by
  rw [effect, h, doubleOperand_zero]

/-- Settles O46: with a count of 0 the read-modify-write gives no new value and leaves the state alone; its access check comes first. -/
theorem doubleShiftByZeroDoesNothing : Obligations.DoubleShiftByZeroDoesNothing := by
  intro i q s hq hc
  rw [exec_of_doubleRow_eq_updateRM hq]
  refine ⟨fun pl hpl => ?_, fun e he => updateRM_raises he⟩
  have hnothing := DoubleRow.effect_of_count_zero hc (readPlace q.w pl s)
  obtain ⟨t, hexec, hregs, hmem, hflags, hdraws, hcompletes⟩ :=
    updateRM_keeps i hpl (q.effect_flagsOnly _ s) (by rw [hnothing])
  rw [hnothing] at hflags hdraws
  exact ⟨t, hexec, hregs, hmem, hflags, hdraws, hcompletes⟩

/-- The value and the flags of a double shift by a count below the width, by the rules (R224, R226). -/
theorem doubleOperand_meets_rules (op : DoubleOp) {w : Width} {k : Nat} (a b : BitVec w.bits) (s : State)
    (hpos : 0 < k) (hk : k < w.bits) :
    (doubleOperand op k b a s).1 = some (BitVec.ofNat w.bits (doubleResultRule op a b k)) ∧
    ResultFlagsRule (BitVec.ofNat w.bits (doubleResultRule op a b k)) s.flags (doubleOperand op k b a s).2.flags ∧
    (doubleOperand op k b a s).2.flags.CF = doubleCarryRule op a k := by
  obtain ⟨hvalue, af, o, hflags⟩ := doubleOperand_in op k b a s hpos.ne' hk
  rw [← toNat_doubleShift a b op hk.le, BitVec.ofNat_toNat, BitVec.setWidth_eq, hflags]
  exact ⟨hvalue, resultFlagsRule_ofResult _ _ _ _ _, doubleShift_snd a b op⟩

/-- Settles O47: with a count below the width the read-modify-write gives the value of the closed form, and flags by the rules. -/
theorem doubleShiftCompletes : Obligations.DoubleShiftCompletes := by
  intro i q s pl hq hwf hpl hst hpos hk a b k r
  obtain ⟨hvalue, hresult, hcarry⟩ := doubleOperand_meets_rules q.op a b s hpos hk
  obtain ⟨t, hexec, hholds, hflags, _, hcompletes⟩ :=
    updateRM_writes i hpl hwf hst (q.effect_flagsOnly a s) hvalue
  rw [exec_of_doubleRow_eq_updateRM hq]
  exact ⟨t, hexec, hholds, hflags ▸ hresult, hflags ▸ hcarry, hcompletes⟩

/-- A count of the operand width or more needs a 16-bit operand, since no count reaches 32 (R221, R223). -/
theorem width_of_bits_le_shiftCount {i : Instr} {q : DoubleRow} {s : State} (hq : doubleRow i = some q)
    (hover : q.w.bits ≤ shiftCount q.count s) : q.w = .w16 := by
  refine (width_of_doubleRow hq).resolve_right fun h32 => ?_
  rw [h32] at hover
  exact (shiftCount_lt q.count s).not_ge hover

/-- Settles O48: the drawn value is written, and no draw is DF or IF. -/
theorem doubleShiftByTooMuch : Obligations.DoubleShiftByTooMuch := by
  intro i q s pl hq hwf hpl hst hover
  have hwidth := width_of_bits_le_shiftCount hq hover
  have hpos : shiftCount q.count s ≠ 0 := by
    have hbits : q.w.bits = 16 := by rw [hwidth]
    omega
  have hframe := q.effect_flagsOnly (readPlace q.w pl s) s
  obtain ⟨v, hv⟩ := doubleOperand_over q.op _ (readReg q.w q.reg s) (readPlace q.w pl s) s hpos hover
  obtain ⟨t, hexec, hholds, hflags, _, hcompletes⟩ := updateRM_writes i hpl hwf hst hframe hv
  rw [exec_of_doubleRow_eq_updateRM hq]
  exact ⟨hwidth, t, v, hexec, hholds, hflags ▸ hframe.DF, hflags ▸ hframe.IF, hcompletes⟩

end Sys2Proof.Machine

/-! PROOFS. SLDT, SMSW and STR (`47_sldt_smsw.md` rules R240 to R245, `48_stc_std_sti_stos_str.md` rule R265), to a register and to memory. -/

namespace Sys2Proof.Machine

open Sys2Proof

/-! ## To a register (R243) -/

section

variable (z : Size) (n : BitVec 3) (v : Half) (s : State)

theorem writeSystemReg_mem : (writeSystemReg z n v s).mem = s.mem := by
  cases z <;> rfl

theorem writeSystemReg_flags : (writeSystemReg z n v s).flags = s.flags := by
  cases z <;> rfl

/-- With either operand size bits 15:0 receive the value. -/
theorem extractLsb'_x_writeSystemReg_low : ((writeSystemReg z n v s).x n).extractLsb' 0 16 = v := by
  cases z with
  | s16 => exact readReg_writeReg .w16 n v s
  | s32 =>
    rw [writeSystemReg, x_drawn, x_setX, if_pos rfl]
    exact BitVec.extractLsb'_append_eq_right

/-- A 16-bit operand is the low view of its register, so bits 31:16 stay. -/
theorem extractLsb'_x_writeSystemReg_high :
    ((writeSystemReg .s16 n v s).x n).extractLsb' 16 16 = (s.x n).extractLsb' 16 16 := by
  refine BitVec.eq_of_getLsbD_eq fun j hj => ?_
  have hspec := writeReg_spec .w16 n v s n (16 + j) (by omega)
  have hhigh : ¬ (n = viewReg .w16 n ∧ viewLow .w16 n ≤ 16 + j ∧ 16 + j < viewLow .w16 n + Width.w16.bits) := by
    rintro ⟨_, _, hlow⟩
    simp [viewLow] at hlow
  rw [BitVec.getLsbD_extractLsb', BitVec.getLsbD_extractLsb', writeSystemReg, hspec, if_neg hhigh]

theorem x_writeSystemReg_other {k : BitVec 3} (hk : k ≠ n) : (writeSystemReg z n v s).x k = s.x k := by
  cases z with
  | s16 => rw [writeSystemReg, writeReg, x_setX]; exact if_neg hk.symm
  | s32 => rw [writeSystemReg, x_drawn, x_setX, if_neg hk.symm]

end

/-- Where its encoding is recognised, a row stores its value whatever the privilege level is (R240, R245, R265). -/
theorem exec_of_systemRow_recognised {i : Instr} {q : SystemRow} {s : State} (h : systemRow s i = some q)
    (hmode : q.protectedOnly = true → s.mode = .prot) :
    exec i s = storeSystem q.value (instrLength i) q.pre q.rm s := by
  rw [exec_of_systemRow h, if_neg]
  rintro ⟨honly, hother⟩
  exact hother (hmode honly)

/-- Settles O52: every row is one write of a system register's value to a general register. -/
theorem systemWordToRegister : Obligations.SystemWordToRegister := by
  intro i q n s hq hrm hmode
  have hready := readyFrom_writeSystemReg (q.pre.operandSize s.defaultSize) n q.value s
  refine ⟨(writeSystemReg (q.pre.operandSize s.defaultSize) n q.value s).retire (instrLength i), ?_,
    extractLsb'_x_writeSystemReg_low _ n q.value s, fun hsize => ?_,
    fun k hk => x_writeSystemReg_other _ n q.value s hk, fun a => ?_, writeSystemReg_flags _ n q.value s,
    completes_retire i s _ hready.constants hready.pc⟩
  · rw [exec_of_systemRow_recognised hq hmode, hrm, storeSystem]
  · rw [hsize]
    exact extractLsb'_x_writeSystemReg_high n q.value s
  · rw [retire_mem, writeSystemReg_mem]

/-! ## To memory (R242) -/

/-- With its operand writable, a memory form stores two bytes; the operand size does not enter (R240). -/
theorem storeSystem_of_access {v : Half} {p : Prefixes} {m : MemOperand} {s : State} {a : List Dword}
    (h : access s (memRef p m s) 2 .write = .ok a) (L : Nat) :
    storeSystem v L p (.mem m) s = commit L (storeBytes a (toBytes 2 v) s) := by
  rcases storeSystem_cases v L p (.mem m) s with ⟨_, ⟨⟩, _⟩ | ⟨_, e, ⟨⟩, he, _⟩ | ⟨_, a', ⟨⟩, ha', hstore⟩
  · cases h.symm.trans he
  · cases h.symm.trans ha'
    exact hstore

/-- Settles O53: every row is one store of the two bytes of a system register's value. -/
theorem systemWordToMemory : Obligations.SystemWordToMemory := by
  intro i q m s p hq hrm hmode hwf hacc hclear
  have hlen : p.length = 2 := access_ok_length hacc
  have hbytes := toBytes_eq_map 2 q.value
  rw [← hlen] at hbytes
  obtain ⟨t, hexec, hregs, hstored, hflags, hdraws, hcompletes⟩ :=
    storeBytes_completes i hbytes (flagsOnly_refl s) hwf hclear
  refine ⟨t, ?_, hregs, hstored, hlen, hflags, hdraws, hcompletes⟩
  rw [exec_of_systemRow_recognised hq hmode, hrm, storeSystem_of_access hacc, ← hlen, hexec]

end Sys2Proof.Machine

/-! PROOFS. STC, STD, STI and STOS (`48_stc_std_sti_stos_str.md` rules R250 to R261), and the life of `sti_shadow` (R256). -/

namespace Sys2Proof.Machine

open Sys2Proof

/-! ## STC and STD -/

theorem exec_stc (p : Prefixes) (s : State) :
    exec (.stc p) s = .next ((s.withFlags { s.flags with CF := true }).retire (instrLength (.stc p))) := rfl

theorem exec_std (p : Prefixes) (s : State) :
    exec (.std p) s = .next ((s.withFlags { s.flags with DF := true }).retire (instrLength (.std p))) := rfl

/-- Settles O40: STC sets CF and completes, and setting flags leaves the rest alone. -/
theorem stcSetsCarry : Obligations.StcSetsCarry :=
  fun p s => ⟨_, exec_stc p s, rfl, rfl, withFlags_retire_frame (.stc p) s _⟩

/-- Settles O41: STD sets DF and completes, and setting flags leaves the rest alone. -/
theorem stdSetsDirection : Obligations.StdSetsDirection :=
  fun p s => ⟨_, exec_std p s, rfl, rfl, withFlags_retire_frame (.std p) s _⟩

/-! ## STI -/

/-- The privilege check of STI passes in every mode but for the cases of R257. -/
theorem stiFaults_eq_false_iff (s : State) : stiFaults s = false ↔
    (s.mode = .prot → s.cpl.toNat ≤ s.iopl.toNat) ∧ (s.mode = .v86 → s.iopl = 3) := by
  have hlevel : 3 ≤ s.iopl.toNat ↔ s.iopl = 3 := by bv_omega
  unfold stiFaults
  cases s.mode with
  | prot => simp
  | v86 => simpa using hlevel
  | real => simp

theorem stiFaults_of_prot {s : State} (hmode : s.mode = .prot) : stiFaults s = decide (s.iopl.toNat < s.cpl.toNat) := by
  simp only [stiFaults, hmode]

theorem stiFaults_of_v86 {s : State} (hmode : s.mode = .v86) : stiFaults s = decide (s.iopl.toNat < 3) := by
  simp only [stiFaults, hmode]

theorem exec_sti_of_faults {s : State} (h : stiFaults s = true) (p : Prefixes) :
    exec (.sti p) s = .fault (.exception .gp0 s) := by
  rw [exec_sti, if_pos h, raise]

theorem exec_sti_of_passes {s : State} (h : stiFaults s = false) (p : Prefixes) :
    exec (.sti p) s =
      .next ((s.withFlags { s.flags with IF := true }).retireShadowed (instrLength (.sti p))) := by
  rw [exec_sti, if_neg (by simp [h])]

/-- Settles O42: STI goes by its privilege check, which is that of R255 and R257. -/
theorem stiByPrivilege : Obligations.StiByPrivilege := by
  intro p s
  refine ⟨fun hprot hv86 => ?passes, fun hmode hlevel => ?prot, fun hmode hlevel => ?v86, rfl⟩
  case passes =>
    refine ⟨_, exec_sti_of_passes ((stiFaults_eq_false_iff s).2 ⟨hprot, hv86⟩) p, rfl, rfl, ?_, fun _ => rfl,
      fun _ => rfl, rfl, (sameConstants_withFlags s _).trans (sameConstants_retireShadowed _ _)⟩
    rw [retireShadowed_pc, toNat_advance, withFlags_pc, withFlags_defaultSize]
  case prot => exact exec_sti_of_faults (by simpa [stiFaults_of_prot hmode] using hlevel) p
  case v86 => exact exec_sti_of_faults (by simpa [stiFaults_of_v86 hmode] using hlevel) p

/-! ## `sti_shadow` after an instruction (R256) -/

/-- STI is the one instruction that completes with `sti_shadow` set. -/
theorem exec_next_stiShadow {i : Instr} {s t : State} (h : exec i s = .next t) :
    t.stiShadow = true ↔ ∃ p, i = .sti p := by
  rcases exec_next h with ⟨p, rfl, rfl⟩ | ⟨p, rfl, rfl⟩ | ⟨_, hsti, u, _, rfl⟩
  · simp
  · simp
  · simp [hsti]

theorem interruptible_iff (s : State) : s.interruptible = true ↔ s.flags.IF = true ∧ ¬ s.stiShadow = true := by
  simp [State.interruptible]

/-- Settles O30: recognition asks for IF and for `sti_shadow` clear, which no instruction but STI sets. -/
theorem stiShadowLastsOneInstruction : Obligations.StiShadowLastsOneInstruction := by
  intro i s t h
  have hshadow := exec_next_stiShadow h
  exact ⟨hshadow, by rw [interruptible_iff, hshadow]⟩

/-! ## STOS -/

/-- With its operand writable and clear of `PROGRAM`, STOS stores the accumulator and moves the index (R260). -/
theorem storeString_of_access {w : Width} {p : Prefixes} {s : State} {a : List Dword}
    (h : access s (stringRef (p.addressSize s.defaultSize) s) w.bytes .write = .ok a) (hclear : hitsProgram s a = false)
    (L : Nat) :
    storeString w L p s = .next ((stepIndex (p.addressSize s.defaultSize) w.bytes
      (s.withMem (s.mem.store a (toBytes w.bytes (readReg w 0 s))))).retire L) := by
  rcases storeString_cases w L p s with ⟨e, he, _⟩ | ⟨a', ha', hhits, _⟩ | ⟨a', ha', _, hstore⟩
  · cases h.symm.trans he
  · cases h.symm.trans ha'
    simp [hclear] at hhits
  · cases h.symm.trans ha'
    exact hstore

/-- Where only memory was written before, moving the index and the end of the instruction leave that memory, the flags and the draws alone (R27, R260). -/
theorem withMem_stepIndex_retire (i : Instr) (z : Size) (k : Nat) (s : State) (m : Memory) :
    ((stepIndex z k (s.withMem m)).retire (instrLength i)).mem = m ∧
    IndexStepped z k s ((stepIndex z k (s.withMem m)).retire (instrLength i)) ∧
    ((stepIndex z k (s.withMem m)).retire (instrLength i)).flags = s.flags ∧
    ((stepIndex z k (s.withMem m)).retire (instrLength i)).draws = s.draws ∧
    Completes i s ((stepIndex z k (s.withMem m)).retire (instrLength i)) := by
  have hmem := sameOtherwise_withMem s m
  have hstep := sameOtherwise_stepIndex z k (s.withMem m)
  refine ⟨by rw [retire_mem, mem_stepIndex, withMem_mem],
    (indexStepped_stepIndex z k (s.withMem m)).congr (x_withMem s m) rfl (x_retire _ _), hstep.flags, hstep.draws,
    completes_retire i s _ (hmem.constants.trans hstep.constants) hstep.pc⟩

/-- What was stored is read off the memory after it only. -/
theorem BytesStored.congr {p : List Dword} {b : Nat → Byte} {s t t' : State} (h : BytesStored p b s t)
    (hmem : t'.mem = t.mem) : BytesStored p b s t' := by
  rw [BytesStored, hmem]
  exact h

/-- Settles O55: every row stores the bytes of the accumulator and then moves the index. -/
theorem stosCompletes : Obligations.StosCompletes := by
  intro i q s p hq hwf hacc hclear
  obtain ⟨hmem, hindex, hflags, hdraws, hcompletes⟩ := withMem_stepIndex_retire i
    (q.pre.addressSize s.defaultSize) q.w.bytes s (s.mem.store p (toBytes q.w.bytes (readReg q.w 0 s)))
  have hstored := bytesStored_toBytes q.w.bytes (readReg q.w 0 s) p s (access_ok_length hacc) hwf
  rw [exec_of_stosRow hq, storeString_of_access hacc hclear]
  exact ⟨stringOperandAt_stringRef _ s, _, rfl, hstored.congr hmem, hindex, hflags, hdraws, hcompletes⟩

end Sys2Proof.Machine

/-! PROOFS. Exceptions (`60_exceptions.md` rules R280 to R300): their causes, and which of them a mode has. -/

namespace Sys2Proof.Machine

open Sys2Proof

/-! ## Results that fault only by an exception (R300) -/

/-- A result that faults, if at all, by an exception for which `cause` holds, with the state `s` as it was. -/
def RaisesOnly (s : State) (cause : Exc → Prop) (r : Result) : Prop :=
  ∀ f, r = .fault f → ∃ e, f = .exception e s ∧ cause e

section

variable {s : State} {cause : Exc → Prop}

theorem raisesOnly_raise {e : Exc} (h : cause e) : RaisesOnly s cause (raise e s) := by
  rintro _ ⟨⟩
  exact ⟨e, rfl, h⟩

theorem raisesOnly_next (t : State) : RaisesOnly s cause (.next t) := by
  rintro _ ⟨⟩

theorem raisesOnly_refused (x : Refusal) : RaisesOnly s cause (.refused x) := by
  rintro _ ⟨⟩

theorem raisesOnly_commit (L : Nat) (r : Except Refusal State) : RaisesOnly s cause (commit L r) := by
  cases r with
  | error x => exact raisesOnly_refused x
  | ok t => exact raisesOnly_next _

theorem RaisesOnly.mono {cause' : Exc → Prop} {r : Result} (h : RaisesOnly s cause r) (hc : ∀ e, cause e → cause' e) :
    RaisesOnly s cause' r := by
  intro f hf
  obtain ⟨e, he, hcause⟩ := h f hf
  exact ⟨e, he, hc e hcause⟩

end

/-- `Access` answers the request, if there is one, with the exception. -/
def AnsweredWith (s : State) (req : Option Request) (e : Exc) : Prop :=
  ∃ r, req = some r ∧ access s r.ref r.bytes r.kind = .error e

theorem answeredWith_of_operandPlace {p : Prefixes} {rm : RM} {n : Nat} {kind : AccessKind} {s : State} {e : Exc}
    (h : operandPlace p rm n kind s = .error e) : AnsweredWith s (rmRequest p n kind s rm) e := by
  cases rm with
  | reg i => cases h
  | mem m =>
    refine ⟨_, rfl, ?_⟩
    rw [operandPlace] at h
    split at h <;> cases h
    assumption

section

variable (w : Width) (L : Nat) (p : Prefixes) (rm : RM) (s : State)

theorem raisesOnly_updateRM (f : BitVec w.bits → State → Option (BitVec w.bits) × State) :
    RaisesOnly s (AnsweredWith s (rmRequest p w.bytes .readwrite s rm)) (updateRM w L p rm f s) := by
  rcases updateRM_cases w L p rm f s with ⟨e, he, h⟩ | ⟨pl, _, _, h⟩ | ⟨pl, v, _, _, h⟩ <;> rw [h]
  · exact raisesOnly_raise (answeredWith_of_operandPlace he)
  · exact raisesOnly_next _
  · exact raisesOnly_commit L _

theorem raisesOnly_readRM (f : BitVec w.bits → State → State) :
    RaisesOnly s (AnsweredWith s (rmRequest p w.bytes .read s rm)) (readRM w L p rm f s) := by
  rcases readRM_cases w L p rm f s with ⟨e, he, h⟩ | ⟨pl, _, h⟩ <;> rw [h]
  · exact raisesOnly_raise (answeredWith_of_operandPlace he)
  · exact raisesOnly_next _

theorem raisesOnly_writeRM (v : BitVec w.bits) :
    RaisesOnly s (AnsweredWith s (rmRequest p w.bytes .write s rm)) (writeRM w L p rm v s) := by
  rcases writeRM_cases w L p rm v s with ⟨e, he, h⟩ | ⟨pl, _, h⟩ <;> rw [h]
  · exact raisesOnly_raise (answeredWith_of_operandPlace he)
  · exact raisesOnly_commit L _

theorem raisesOnly_scanString :
    RaisesOnly s (AnsweredWith s (some ⟨stringRef (p.addressSize s.defaultSize) s, w.bytes, .read⟩))
      (scanString w L p s) := by
  rcases scanString_cases w L p s with ⟨e, he, h⟩ | ⟨a, _, h⟩ <;> rw [h]
  · exact raisesOnly_raise ⟨_, rfl, he⟩
  · exact raisesOnly_next _

theorem raisesOnly_storeString :
    RaisesOnly s (AnsweredWith s (some ⟨stringRef (p.addressSize s.defaultSize) s, w.bytes, .write⟩))
      (storeString w L p s) := by
  rcases storeString_cases w L p s with ⟨e, he, h⟩ | ⟨a, _, _, h⟩ | ⟨a, _, _, h⟩ <;> rw [h]
  · exact raisesOnly_raise ⟨_, rfl, he⟩
  · exact raisesOnly_refused _
  · exact raisesOnly_next _

theorem raisesOnly_storeSystem (v : Half) :
    RaisesOnly s (AnsweredWith s (rmRequest p 2 .write s rm)) (storeSystem v L p rm s) := by
  rcases storeSystem_cases v L p rm s with ⟨i, _, h⟩ | ⟨m, e, rfl, he, h⟩ | ⟨m, a, _, _, h⟩ <;> rw [h]
  · exact raisesOnly_next _
  · exact raisesOnly_raise ⟨_, rfl, he⟩
  · exact raisesOnly_commit L _

/-- SGDT and SIDT have a cause beside `Access`: a register operand (R213). -/
theorem raisesOnly_storeTable (t : DescTable) :
    RaisesOnly s (fun e => (e = .ud ∧ ∃ n, rm = .reg n) ∨ AnsweredWith s (rmRequest p 6 .write s rm) e)
      (storeTable t L p rm s) := by
  rcases storeTable_cases t L p rm s with ⟨n, hrm, h⟩ | ⟨m, e, rfl, he, h⟩ | ⟨m, a, _, _, h⟩ <;> rw [h]
  · exact raisesOnly_raise (.inl ⟨rfl, n, hrm⟩)
  · exact raisesOnly_raise (.inr ⟨_, rfl, he⟩)
  · exact raisesOnly_commit L _

theorem raisesOnly_subFromRM (op : SubOp) (b : BitVec w.bits) :
    RaisesOnly s (AnsweredWith s (rmRequest p w.bytes .readwrite s rm)) (subFromRM op w L p rm b s) :=
  raisesOnly_updateRM w L p rm s _

theorem raisesOnly_subRow {i : Instr} {q : SubRow} (h : subRow i = some q) :
    RaisesOnly s (AnsweredWith s (q.request s)) (q.run L s) := by
  obtain ⟨op, w, p, dest, src⟩ := q
  cases src with
  | imm v => exact raisesOnly_subFromRM w L p dest s op v
  | reg r => exact raisesOnly_subFromRM w L p dest s op (readReg w r s)
  | rm rm =>
    obtain ⟨r, rfl : dest = .reg r⟩ := dest_of_subRow h rfl
    rw [← subFromReg_eq_run]
    exact raisesOnly_readRM w L p rm s _

end

/-! ## Interrupt 6 and the denied STI by rows (R255, R284) -/

section

variable {i : Instr} {s : State}

theorem unrecognised_of_tableRow {q : TableRow} {n : BitVec 3} (h : tableRow s i = some q) (hrm : q.rm = .reg n) :
    unrecognised i s = true := by
  unfold tableRow at h
  split at h <;> cases h <;> cases hrm <;> rfl

theorem unrecognised_of_systemRow {q : SystemRow} (h : systemRow s i = some q) (hq : q.protectedOnly = true) :
    unrecognised i s = (s.mode != .prot) := by
  unfold systemRow at h
  split at h <;> cases h
  case h_2 => cases hq
  all_goals rfl

/-- In Protected Mode Interrupt 6 is left to SGDT and SIDT with a register operand (R284). -/
theorem tableRow_of_unrecognised (hmode : s.mode = .prot) (h : unrecognised i s = true) :
    ∃ q n, tableRow s i = some q ∧ q.rm = .reg n := by
  unfold unrecognised at h
  split at h
  · exact ⟨_, _, rfl, rfl⟩
  · exact ⟨_, _, rfl, rfl⟩
  · simp [hmode] at h
  · simp [hmode] at h
  · cases h

theorem stiDenied_sti (p : Prefixes) (s : State) : stiDenied (.sti p) s = stiFaults s := by
  unfold stiDenied stiFaults
  cases s.mode <;> simp

/-- In Real Address Mode STI is not privileged (R255). -/
theorem stiDenied_of_real (hmode : s.mode = .real) : stiDenied i s = false := by
  unfold stiDenied
  split
  · simp [hmode]
  · rfl

end

/-! ## The causes of an exception (R281, R284, R288, R295) -/

/-- The three causes: an encoding not recognised, a denied STI, the answer to the one request of the instruction. -/
def CausesException (i : Instr) (s : State) (e : Exc) : Prop :=
  (e = .ud ∧ unrecognised i s = true) ∨ (e = .gp0 ∧ stiDenied i s = true) ∨ AnsweredWith s (request i s) e

section

variable {i : Instr} {s : State}

theorem causesException_of_answer (e : Exc) (h : AnsweredWith s (request i s) e) : CausesException i s e :=
  .inr (.inr h)

theorem raisesOnly_tableRow {q : TableRow} (h : tableRow s i = some q) :
    RaisesOnly s (CausesException i s) (exec i s) := by
  rw [exec_of_tableRow h]
  refine (raisesOnly_storeTable _ q.pre q.rm s q.table).mono fun e => ?_
  rintro (⟨rfl, n, hrm⟩ | hans)
  · exact .inl ⟨rfl, unrecognised_of_tableRow h hrm⟩
  · exact causesException_of_answer e (request_of_tableRow s h ▸ hans)

theorem raisesOnly_systemRow {q : SystemRow} (h : systemRow s i = some q) :
    RaisesOnly s (CausesException i s) (exec i s) := by
  have hreq := request_of_systemRow s h
  rw [exec_of_systemRow h]
  split
  · next hun =>
    obtain ⟨honly, hmode⟩ := hun
    exact raisesOnly_raise (.inl ⟨rfl, by simpa [unrecognised_of_systemRow h honly] using hmode⟩)
  · next hrec =>
    rw [if_neg hrec] at hreq
    exact (raisesOnly_storeSystem _ _ _ s _).mono fun e hans => causesException_of_answer e (hreq ▸ hans)

theorem raisesOnly_sti (p : Prefixes) (s : State) : RaisesOnly s (CausesException (.sti p) s) (exec (.sti p) s) := by
  rw [exec_sti]
  split
  · next hfaults => exact raisesOnly_raise (.inr (.inl ⟨rfl, (stiDenied_sti p s).trans hfaults⟩))
  · exact raisesOnly_next _

/-- Every instruction faults, if at all, by an exception with one of the causes, and changes nothing then (R300). -/
theorem exec_raisesOnly (i : Instr) (s : State) : RaisesOnly s (CausesException i s) (exec i s) := by
  cases rowOf s i with
  | sub q h =>
    rw [exec_of_subRow h]
    exact (raisesOnly_subRow _ s h).mono (request_of_subRow s h ▸ causesException_of_answer)
  | shift q h =>
    rw [exec_of_shiftRow h]
    exact (raisesOnly_updateRM _ _ _ _ s _).mono (request_of_shiftRow s h ▸ causesException_of_answer)
  | double q h =>
    rw [exec_of_doubleRow h]
    exact (raisesOnly_updateRM _ _ _ _ s _).mono (request_of_doubleRow s h ▸ causesException_of_answer)
  | set q h =>
    rw [exec_of_setRow h]
    exact (raisesOnly_writeRM .w8 _ _ _ s _).mono (request_of_setRow s h ▸ causesException_of_answer)
  | scas q h =>
    rw [exec_of_scasRow h]
    exact (raisesOnly_scanString _ _ _ s).mono (request_of_scasRow s h ▸ causesException_of_answer)
  | stos q h =>
    rw [exec_of_stosRow h]
    exact (raisesOnly_storeString _ _ _ s).mono (request_of_stosRow s h ▸ causesException_of_answer)
  | table q h => exact raisesOnly_tableRow h
  | system q h => exact raisesOnly_systemRow h
  | sahf p h | stc p h | std p h => subst h; exact raisesOnly_next _
  | sti p h => subst h; exact raisesOnly_sti p s

theorem exec_exception {t : State} {e : Exc} (h : exec i s = .fault (.exception e t)) :
    t = s ∧ CausesException i s e := by
  obtain ⟨e', he, hcause⟩ := exec_raisesOnly i s _ h
  cases he
  exact ⟨rfl, hcause⟩

end

/-- A step that ends in an exception executed an instruction that raised it (R325). -/
theorem step_exception {s t : State} {e : Exc} (h : step s = .fault (.exception e t)) :
    ∃ i, exec i s = .fault (.exception e t) := by
  unfold step at h
  split at h
  · split at h
    · cases h
    · exact ⟨_, h⟩
  · split at h <;> cases h

/-- Settles O33: an instruction faults by an exception with the state before it only, and a step faults so by an instruction only. -/
theorem exceptionsChangeNothing : Obligations.ExceptionsChangeNothing := by
  refine ⟨fun i s f h => ?_, fun s t e h => ?_⟩
  · obtain ⟨e, hf, _⟩ := exec_raisesOnly i s f h
    exact ⟨e, hf⟩
  · obtain ⟨i, hi⟩ := step_exception h
    exact (exec_exception hi).1

/-- Settles O34: the causes of every instruction, row by row. -/
theorem exceptionSources : Obligations.ExceptionSources :=
  fun _ _ _ _ h => (exec_exception h).2

/-! ## Which exceptions `Access` answers (R70, R71, R72) -/

section

variable {s : State} {r : MemRef} {n : Nat} {kind : AccessKind} {e : Exc}

theorem pageCheck_error (h : pageCheck s r n kind = .error e) : ∃ code, e = .pf code := by
  rcases pageCheck_answers s r n kind with ⟨p, hp⟩ | ⟨code, hfault⟩
  · cases h.symm.trans hp
  · cases h.symm.trans hfault
    exact ⟨code, rfl⟩

theorem access_error_of_real (hmode : s.mode = .real) (h : access s r n kind = .error e) : e = .int13 := by
  rw [access_of_real r n kind hmode] at h
  split at h <;> cases h
  rfl

theorem access_error_of_v86 (hmode : s.mode = .v86) (h : access s r n kind = .error e) :
    e = .int13 ∨ ∃ code, e = .pf code := by
  rw [access_of_v86 r n kind hmode] at h
  split at h
  · cases h
    exact .inl rfl
  · exact .inr (pageCheck_error h)

/-- An illegal address is `SS(0)` in the stack segment and `GP(0)` in every other (R70). -/
theorem access_error_of_prot (hmode : s.mode = .prot) (h : access s r n kind = .error e) :
    e = .gp0 ∨ (e = .ss0 ∧ r.seg = .ss) ∨ ∃ code, e = .pf code := by
  rw [access_of_prot r n kind hmode] at h
  split at h
  · cases h
    exact .inl rfl
  split at h
  · cases h
    split
    · next hss => exact .inr (.inl ⟨rfl, hss⟩)
    · exact .inl rfl
  · exact .inr (.inr (pageCheck_error h))

theorem access_ne_ud (s : State) (r : MemRef) (n : Nat) (kind : AccessKind) : access s r n kind ≠ .error .ud := by
  intro h
  cases hmode : s.mode with
  | real => cases access_error_of_real hmode h
  | v86 => simpa using access_error_of_v86 hmode h
  | prot => simpa using access_error_of_prot hmode h

end

/-- Settles O38: of the three causes only the first raises Interrupt 6. -/
theorem unrecognisedEncodingsRaiseUD : Obligations.UnrecognisedEncodingsRaiseUD := by
  refine ⟨fun p n s => rfl, fun p n s => rfl, fun p rm s hmode => ?sldt, fun p rm s hmode => ?str, fun i s t h => ?only⟩
  case sldt => rw [exec_of_systemRow (q := ⟨s.ldtr, true, p, rm⟩) rfl, if_pos ⟨rfl, hmode⟩, raise]
  case str => rw [exec_of_systemRow (q := ⟨s.tr, true, p, rm⟩) rfl, if_pos ⟨rfl, hmode⟩, raise]
  case only =>
    rcases (exec_exception h).2 with ⟨_, hun⟩ | ⟨⟨⟩, _⟩ | ⟨r, _, hans⟩
    · exact hun
    · exact absurd hans (access_ne_ud s _ _ _)

/-! ## The table (R286) -/

section

variable {i : Instr} {s : State} {r : Request}

/-- A string operand stands in ES, so it is no stack access (R62). -/
theorem no_string_row_of_ss (hreq : request i s = some r) (hss : r.ref.seg = .ss) :
    (scasRow i).isNone ∧ (stosRow i).isNone := by
  have hstring (z : Size) : (stringRef z s).seg = .es := (stringOperandAt_stringRef z s).seg
  constructor
  · cases h : scasRow i with
    | none => rfl
    | some q =>
      cases (request_of_scasRow s h).symm.trans hreq
      cases (hstring _).symm.trans hss
  · cases h : stosRow i with
    | none => rfl
    | some q =>
      cases (request_of_stosRow s h).symm.trans hreq
      cases (hstring _).symm.trans hss

/-- Outside of Protected Mode SLDT and STR make no request (R109). -/
theorem not_protectedOnly_of_request (hmode : s.mode ≠ .prot) (hreq : request i s = some r) :
    ∀ q, systemRow s i = some q → q.protectedOnly = false := by
  intro q hq
  rw [request_of_systemRow s hq] at hreq
  split at hreq
  · cases hreq
  · next hrec => simpa [hmode] using hrec

end

/-- Settles O35: each cause in each mode, with the exceptions that `Access` answers there. -/
theorem exceptionTable : Obligations.ExceptionTable := by
  intro i s t e h
  rcases (exec_exception h).2 with ⟨rfl, hun⟩ | ⟨rfl, hdenied⟩ | ⟨r, hreq, hans⟩
  · cases hmode : s.mode with
    | prot => exact tableRow_of_unrecognised hmode hun
    | real => exact hun
    | v86 => exact hun
  · cases hmode : s.mode with
    | prot => exact .inl hdenied
    | real => simp [stiDenied_of_real hmode] at hdenied
    | v86 => exact hdenied
  · have hsome : (request i s).isSome = true := by rw [hreq, Option.isSome_some]
    cases hmode : s.mode with
    | prot =>
      rcases access_error_of_prot hmode hans with rfl | ⟨rfl, hss⟩ | ⟨code, rfl⟩
      · exact .inr hsome
      · exact ⟨⟨r, hreq, hss⟩, no_string_row_of_ss hreq hss⟩
      · exact hsome
    | real =>
      have hrow := not_protectedOnly_of_request (by simp [hmode]) hreq
      obtain rfl := access_error_of_real hmode hans
      exact ⟨hsome, hrow⟩
    | v86 =>
      have hrow := not_protectedOnly_of_request (by simp [hmode]) hreq
      rcases access_error_of_v86 hmode hans with rfl | ⟨code, rfl⟩
      · exact ⟨hsome, hrow⟩
      · exact ⟨hsome, hrow⟩

end Sys2Proof.Machine

/-! PROOFS. The state after reset (`70_reset_and_hazards.md` rule R321), and what `sti_shadow` has no influence on (rules R291 and R325, `48_stc_std_sti_stos_str.md` rule R256). -/

namespace Sys2Proof.Machine

open Sys2Proof

/-! ## Reset -/

/-- Where no program is placed, there is nothing for memory to hold. -/
theorem programInMemory_of_empty {s : State} (h : s.program.bytes = []) : ProgramInMemory s := by
  intro k hk
  simp [h] at hk

/-- Settles O27: memory and `PROGRAM` are empty after reset, and `pc` is FFF0 in 16-bit code. -/
theorem resetMeetsInvariant : Obligations.ResetMeetsInvariant :=
  ⟨⟨rfl, programInMemory_of_empty rfl, by decide⟩, rfl⟩

/-! ## A state and a result with another `sti_shadow` -/

/-- The state with another `sti_shadow`. -/
def State.withShadow (s : State) (b : Bool) : State := { s with stiShadow := b }

/-- The result with another `sti_shadow` in the state that a run ends with; a completed instruction and a refusal are as they were. -/
def reshadow (b : Bool) : Result → Result
  | .next t => .next t
  | .fault (.exception e t) => .fault (.exception e (t.withShadow b))
  | .fault (.completed t) => .fault (.completed (t.withShadow b))
  | .refused x => .refused x

/-- A meaning whose results from states that differ in `sti_shadow` differ in the recorded `sti_shadow` only. -/
def IgnoresShadow (m : State → Result) : Prop := ∀ s b, m (s.withShadow b) = reshadow b (m s)

/-! ## What the operations read is not `sti_shadow` -/

section

variable (s : State) (b : Bool)

theorem sameConstants_withShadow : SameConstants s (s.withShadow b) := by constructor <;> rfl

theorem access_withShadow (r : MemRef) (n : Nat) (kind : AccessKind) :
    access (s.withShadow b) r n kind = access s r n kind :=
  access_congr (sameConstants_withShadow s b) r n kind

theorem access_memRef_withShadow (p : Prefixes) (m : MemOperand) (n : Nat) (kind : AccessKind) :
    access (s.withShadow b) (memRef p m (s.withShadow b)) n kind = access s (memRef p m s) n kind :=
  access_withShadow s b (memRef p m s) n kind

theorem access_stringRef_withShadow (p : Prefixes) (n : Nat) (kind : AccessKind) :
    access (s.withShadow b) (stringRef (p.addressSize (s.withShadow b).defaultSize) (s.withShadow b)) n kind =
      access s (stringRef (p.addressSize s.defaultSize) s) n kind :=
  access_withShadow s b (stringRef (p.addressSize s.defaultSize) s) n kind

theorem operandPlace_withShadow (p : Prefixes) (rm : RM) (n : Nat) (kind : AccessKind) :
    operandPlace p rm n kind (s.withShadow b) = operandPlace p rm n kind s := by
  cases rm with
  | reg i => rfl
  | mem m => rw [operandPlace, operandPlace, access_memRef_withShadow]

theorem readPlace_withShadow (w : Width) (pl : Place) : readPlace w pl (s.withShadow b) = readPlace w pl s := rfl

theorem source_withShadow (q : SubRow) : q.source (s.withShadow b) = q.source s := by
  unfold SubRow.source
  simp only [operandPlace_withShadow]
  rfl

theorem stepIndex_withShadow (z : Size) (k : Nat) :
    stepIndex z k (s.withShadow b) = (stepIndex z k s).withShadow b := by
  cases z <;> rfl

theorem stepIndex_retire_withShadow (z : Size) (k L : Nat) :
    (stepIndex z k (s.withShadow b)).retire L = (stepIndex z k s).retire L := by
  rw [stepIndex_withShadow]
  rfl

theorem writeSystemReg_retire_withShadow (z : Size) (n : BitVec 3) (v : Half) (L : Nat) :
    (writeSystemReg z n v (s.withShadow b)).retire L = (writeSystemReg z n v s).retire L := by
  cases z <;> rfl

theorem afterImage_withShadow (z : Size) : afterImage z (s.withShadow b) = (afterImage z s).withShadow b := by
  cases z <;> rfl

theorem shiftOperand_withShadow (op : ShiftOp) (c : Nat) {n : Nat} (a : BitVec n) :
    shiftOperand op c a (s.withShadow b) =
      ((shiftOperand op c a s).1, (shiftOperand op c a s).2.withShadow b) := by
  match c with
  | 0 | 1 | _ + 2 => rfl

theorem doubleOperand_withShadow (op : DoubleOp) (c : Nat) {n : Nat} (x a : BitVec n) :
    doubleOperand op c x a (s.withShadow b) =
      ((doubleOperand op c x a s).1, (doubleOperand op c x a s).2.withShadow b) := by
  unfold doubleOperand
  split
  · rfl
  · split <;> rfl

/-- Completing an instruction sets `sti_shadow` anew, after a store as well. -/
theorem commit_storeBytes_withShadow (L : Nat) (p : List Dword) (bs : List Byte) :
    commit L (storeBytes p bs (s.withShadow b)) = reshadow b (commit L (storeBytes p bs s)) := by
  rw [storeBytes_eq, storeBytes_eq, hitsProgram_congr (sameConstants_withShadow s b)]
  split <;> rfl

theorem commit_writePlace_withShadow (L : Nat) (w : Width) (pl : Place) (v : BitVec w.bits) :
    commit L (writePlace w pl v (s.withShadow b)) = reshadow b (commit L (writePlace w pl v s)) := by
  cases pl with
  | reg i => rfl
  | mem p => exact commit_storeBytes_withShadow s b L p _

end

/-! ## No meaning depends on `sti_shadow` (R256, R291) -/

section

variable (w : Width) (L : Nat) (p : Prefixes) (rm : RM)

theorem ignoresShadow_updateRM {f : BitVec w.bits → State → Option (BitVec w.bits) × State}
    (hf : ∀ a s b, f a (s.withShadow b) = ((f a s).1, (f a s).2.withShadow b)) :
    IgnoresShadow (updateRM w L p rm f) := by
  intro s b
  rw [updateRM, updateRM, operandPlace_withShadow]
  cases operandPlace p rm w.bytes .readwrite s with
  | error e => rfl
  | ok pl =>
    dsimp only
    rw [readPlace_withShadow, hf]
    obtain ⟨v, u⟩ := f (readPlace w pl s) s
    cases v with
    | none => rfl
    | some v => exact commit_writePlace_withShadow u b L w pl v

theorem ignoresShadow_writeRM (v : BitVec w.bits) : IgnoresShadow (writeRM w L p rm v) := by
  intro s b
  rw [writeRM, writeRM, operandPlace_withShadow]
  cases operandPlace p rm w.bytes .write s with
  | error e => rfl
  | ok pl => exact commit_writePlace_withShadow s b L w pl v

theorem ignoresShadow_setByte (c : Cond) : IgnoresShadow (setByte c L p rm) :=
  fun s b => ignoresShadow_writeRM .w8 L p rm _ s b

theorem ignoresShadow_subRow (q : SubRow) : IgnoresShadow (q.run L) := by
  intro s b
  rw [SubRow.run, SubRow.run, source_withShadow]
  cases q.source s with
  | error e => rfl
  | ok v => exact ignoresShadow_updateRM q.w L q.pre q.dest (fun _ _ _ => rfl) s b

theorem ignoresShadow_scanString : IgnoresShadow (scanString w L p) := by
  intro s b
  rw [scanString, scanString, access_stringRef_withShadow]
  cases access s (stringRef (p.addressSize s.defaultSize) s) w.bytes .read with
  | error e => rfl
  | ok a => exact congrArg Host.Outcome.next (stepIndex_retire_withShadow (s.withFlags _) b _ _ L)

theorem ignoresShadow_storeString : IgnoresShadow (storeString w L p) := by
  intro s b
  rw [storeString, storeString, access_stringRef_withShadow]
  cases access s (stringRef (p.addressSize s.defaultSize) s) w.bytes .write with
  | error e => rfl
  | ok a =>
    dsimp only
    rw [storeBytes_eq, storeBytes_eq, hitsProgram_congr (sameConstants_withShadow s b)]
    cases hitsProgram s a with
    | true => rfl
    | false => exact congrArg Host.Outcome.next (stepIndex_retire_withShadow (s.withMem _) b _ _ L)

theorem ignoresShadow_storeTable (t : DescTable) : IgnoresShadow (storeTable t L p rm) := by
  intro s b
  cases rm with
  | reg n => rfl
  | mem m =>
    rw [storeTable, storeTable, access_memRef_withShadow]
    cases access s (memRef p m s) 6 .write with
    | error e => rfl
    | ok a =>
      dsimp only
      rw [← commit_storeBytes_withShadow, ← afterImage_withShadow]
      rfl

theorem ignoresShadow_storeSystem (v : Half) : IgnoresShadow (storeSystem v L p rm) := by
  intro s b
  cases rm with
  | reg n => exact congrArg Host.Outcome.next (writeSystemReg_retire_withShadow s b _ n v L)
  | mem m =>
    rw [storeSystem, storeSystem, access_memRef_withShadow]
    cases access s (memRef p m s) 2 .write with
    | error e => rfl
    | ok a => exact commit_storeBytes_withShadow s b L a _

theorem ignoresShadow_sti : IgnoresShadow (exec (.sti p)) := by
  intro s b
  have hfaults : stiFaults (s.withShadow b) = stiFaults s := rfl
  rw [exec_sti, exec_sti, hfaults]
  split <;> rfl

end

theorem tableRow_withShadow (s : State) (b : Bool) (i : Instr) : tableRow (s.withShadow b) i = tableRow s i := rfl

theorem systemRow_withShadow (s : State) (b : Bool) (i : Instr) : systemRow (s.withShadow b) i = systemRow s i := rfl

theorem ignoresShadow_exec (i : Instr) : IgnoresShadow (exec i) := by
  intro s b
  cases rowOf s i with
  | sub q h => rw [exec_of_subRow h, exec_of_subRow h]; exact ignoresShadow_subRow _ q s b
  | shift q h =>
    rw [exec_of_shiftRow h, exec_of_shiftRow h]
    exact ignoresShadow_updateRM _ _ _ _ (fun a s b => shiftOperand_withShadow s b q.op (shiftCount q.count s) a) s b
  | double q h =>
    rw [exec_of_doubleRow h, exec_of_doubleRow h]
    exact ignoresShadow_updateRM _ _ _ _
      (fun a s b => doubleOperand_withShadow s b q.op (shiftCount q.count s) (readReg q.w q.reg s) a) s b
  | set q h => rw [exec_of_setRow h, exec_of_setRow h]; exact ignoresShadow_setByte _ _ _ _ s b
  | scas q h => rw [exec_of_scasRow h, exec_of_scasRow h]; exact ignoresShadow_scanString _ _ _ s b
  | stos q h => rw [exec_of_stosRow h, exec_of_stosRow h]; exact ignoresShadow_storeString _ _ _ s b
  | table q h =>
    rw [exec_of_tableRow h, exec_of_tableRow ((tableRow_withShadow s b i).trans h)]
    exact ignoresShadow_storeTable _ _ _ _ s b
  | system q h =>
    have hmode : (s.withShadow b).mode = s.mode := rfl
    rw [exec_of_systemRow h, exec_of_systemRow ((systemRow_withShadow s b i).trans h), hmode]
    split
    · rfl
    · exact ignoresShadow_storeSystem _ _ _ _ s b
  | sahf p h | stc p h | std p h => subst h; rfl
  | sti p h => subst h; exact ignoresShadow_sti p s b

theorem ignoresShadow_step : IgnoresShadow step := by
  intro s b
  have hinside : insideProgram (s.withShadow b) = insideProgram s := rfl
  have hpast : pastProgram (s.withShadow b) = pastProgram s := rfl
  have hfetch : decode (s.withShadow b).defaultSize (fetchBytes (s.withShadow b)) =
      decode s.defaultSize (fetchBytes s) := rfl
  rw [step, step, hinside, hpast, hfetch]
  split
  · split
    · rfl
    · exact ignoresShadow_exec _ s b
  · split <;> rfl

/-- Settles O31: a step gives the same result but for the `sti_shadow` that an exception or a completed run records. -/
theorem stepIgnoresStiShadow : Obligations.StepIgnoresStiShadow := by
  intro s b
  have hstep : step { s with stiShadow := b } = reshadow b (step s) := ignoresShadow_step s b
  refine ⟨fun t h => ?_, fun r h => ?_, fun e t h => ?_, fun t h => ?_⟩ <;> rw [hstep, h] <;> rfl

end Sys2Proof.Machine
